-- ==== Sys2Proof/Word.lean ====
section
/-! DEFINITION. The word types of the PIC16F84A: the widths that rule R7 (spec/00_scope.md) fixes.
Arithmetic on them is Lean's `BitVec` arithmetic, which wraps (rule R9). -/

namespace Sys2Proof

/-- A data value: `DATA_WIDTH` = 8 bits (R7, R9). -/
abbrev Byte := BitVec 8

/-- A word of program memory: `INSTR_WIDTH` = 14 bits (R7, R100). -/
abbrev InstrWord := BitVec 14

/-- A program address: `PC_WIDTH` = 13 bits (R7, R22); addition is modulo 8192 (R25). -/
abbrev ProgAddr := BitVec 13

/-- A data address after banking: 8 bits (R70, R74). -/
abbrev DataAddr := BitVec 8

/-- The file register field `f` of an instruction: `F_WIDTH` = 7 bits (R7, R108). -/
abbrev FileField := BitVec 7

/-- The bit number field `b` of an instruction: `B_WIDTH` = 3 bits (R7, R108). -/
abbrev BitField := BitVec 3

end Sys2Proof
end

