-- ==== Sys2Proof/Config.lean ====
section
/-! DEFINITION. What an implementation of the PIC16F84A fixes (the parameters of rule R7 and section
6 of spec/92_eei_decisions.md), the values the spec leaves unknown at power-on (R58, R59), and the
fixed addresses of rule R7. -/

namespace Sys2Proof.Config

/-- `STACK_POLICY` (R29, D7): what a ninth push or a pop of an empty stack does. -/
inductive StackPolicy where
  | fault
  | circular
  deriving DecidableEq, Repr

/-- `UNINIT_POLICY` (R59, D27): whether reading a location unknown since power-on is reported. -/
inductive UninitPolicy where
  | draw
  | fault
  deriving DecidableEq, Repr

/-- The parameters of rule R7. `progWordsLog2` stands for `PROG_WORDS`, which is a power of two up to
8192 (92_eei_decisions.md section 6). `wdtPeriodMicros` and `fOsc` are the nominal watchdog period
and the oscillator frequency in Hz: no rule of the step reads them (R224, R266). -/
structure Params where
  progWordsLog2 : Fin 14
  stackPolicy : StackPolicy
  uninitPolicy : UninitPolicy
  wdtEnabled : Bool
  wdtPeriodMicros : Nat
  eepromBytes : Nat
  fOsc : Option Nat
  deriving DecidableEq, Repr

/-- `PROG_WORDS`: the number of program words the device implements (R72). -/
def Params.progWords (p : Params) : Nat := 2 ^ p.progWordsLog2.val

/-- The defaults of rule R7. -/
def defaults : Params where
  progWordsLog2 := 10
  stackPolicy := .fault
  uninitPolicy := .draw
  wdtEnabled := false
  wdtPeriodMicros := 18000
  eepromBytes := 64
  fOsc := none

/-- `RESET_VECTOR` (R7, R251). -/
def resetVector : ProgAddr := 0x0000

/-- `INT_VECTOR` (R7, R213). -/
def interruptVector : ProgAddr := 0x0004

/-- `OSC_PER_CYCLE` (R7, R266): oscillator periods in one instruction cycle. -/
def oscPerCycle : Nat := 4

/-- What an unlisted byte of data memory reads as. DESIGN CHOICE, unsafe: the spec gives the GPRs and
the data EEPROM no contents at power-on (R51, R56; assumption 5). -/
def memFill : Byte := 0x00

/-- The locations whose value at power-on is unknown, at the granularity of rule R59: a byte each for
`W`, the GPRs, FSR, TMR0, the port latches, EEDATA and EEADR; a bit each for STATUS.Z, STATUS.DC,
STATUS.C, INTCON.RBIF and EECON1 bit 3. -/
inductive UnknownLoc where
  | w
  | fsr
  | tmr0
  | latA
  | latB
  | eedata
  | eeadr
  | z
  | dc
  | c
  | rbif
  | wrerr
  | gpr (a : DataAddr)
  deriving DecidableEq, Repr

/-- The 68 GPR addresses 0Ch to 4Fh (R51). -/
def gprAddrs : List DataAddr := (List.range 68).map (fun i => BitVec.ofNat 8 (0x0C + i))

/-- Every location of `UnknownLoc`. -/
def unknownLocs : List UnknownLoc :=
  [.w, .fsr, .tmr0, .latA, .latB, .eedata, .eeadr, .z, .dc, .c, .rbif, .wrerr]
    ++ gprAddrs.map .gpr

/-- Free value: what a power-on that is the `n`-th reset of a run leaves in an unknown location (R58,
R59, D27; DESIGN CHOICE, assumption 8). A location of fewer than 8 bits takes the low bits. Opaque:
nothing can be proved of it. -/
opaque powerOnValue (n : Nat) (l : UnknownLoc) : Byte

/-- Free value: what a power-on that is the `n`-th reset of a run leaves in stack entry `i` (R29, R58,
U12; DESIGN CHOICE, assumption 8). -/
opaque powerOnStack (n : Nat) (i : Nat) : ProgAddr

/-- Free value: `rb_last` after the `n`-th reset of a run, of whatever kind (R225, R58, U17; DESIGN
CHOICE, assumption 30). -/
opaque resetRbLast (n : Nat) : BitVec 4

end Sys2Proof.Config
end

