-- ==== Sys2Proof/Syntax.lean ====
section
/-! DEFINITION. The abstract syntax: one constructor for each of the 35 instructions of rule R2
(spec/00_scope.md), that is, for each row of spec/opcode_table.json. The operands have exactly the
widths of rule R108, so a value of `Instr` cannot hold an operand out of range; the ranges of the
source text are checked in WellFormed.lean. The `x` bits of an opcode carry no operand (R105) and
are not part of the syntax. -/

namespace Sys2Proof

/-- The destination bit `d` (R120): 0 names `W`, 1 names the file register `f`. -/
inductive Dest where
  | w
  | f
  deriving DecidableEq, Repr

/-- The 35 instructions (R2), in the order of spec/opcode_table.json. -/
inductive Instr where
  | addlw (k : Byte)
  | addwf (d : Dest) (f : FileField)
  | andlw (k : Byte)
  | andwf (d : Dest) (f : FileField)
  | bcf (b : BitField) (f : FileField)
  | bsf (b : BitField) (f : FileField)
  | btfsc (b : BitField) (f : FileField)
  | btfss (b : BitField) (f : FileField)
  | call (k : BitVec 11)
  | clrf (f : FileField)
  | clrw
  | clrwdt
  | comf (d : Dest) (f : FileField)
  | decf (d : Dest) (f : FileField)
  | decfsz (d : Dest) (f : FileField)
  | goto (k : BitVec 11)
  | incf (d : Dest) (f : FileField)
  | incfsz (d : Dest) (f : FileField)
  | iorlw (k : Byte)
  | iorwf (d : Dest) (f : FileField)
  | movlw (k : Byte)
  | movf (d : Dest) (f : FileField)
  | movwf (f : FileField)
  | nop
  | retfie
  | retlw (k : Byte)
  | ret
  | rlf (d : Dest) (f : FileField)
  | rrf (d : Dest) (f : FileField)
  | sleep
  | sublw (k : Byte)
  | subwf (d : Dest) (f : FileField)
  | swapf (d : Dest) (f : FileField)
  | xorlw (k : Byte)
  | xorwf (d : Dest) (f : FileField)
  deriving DecidableEq, Repr

end Sys2Proof
end

