-- ==== Sys2Proof/Machine/State.lean ====
section
/-! DEFINITION. The state of the machine (rule R20, spec/10_state.md), the inputs the environment
offers it (R231, spec/60_exceptions.md), the reasons a step can stop (R201), and the state after
power-on reset (R58). -/

namespace Sys2Proof.Machine

open Sys2Proof.Config (Params UnknownLoc)

/-- Byte memory: address and byte pairs, addresses strictly rising, no entry equal to
`Config.memFill`, which is what an unlisted address reads as. -/
abbrev Memory := List Host.Cell

/-- The program image (R72): program address and 14-bit word pairs, addresses strictly rising. An
unlisted address holds no word. -/
abbrev ProgMem := List (Nat × InstrWord)

/-- One thing the environment does at a boundary (R231). The internal Timer0 ticks of R231 are not
among them: they are no choice and the step makes them itself (R232). -/
inductive EnvEvent where
  /-- The outside levels on RA4:RA0 become `v`; RA4 is also T0CKI (R55). -/
  | pinsA (v : BitVec 5)
  /-- The outside levels on RB7:RB0 become `v`; RB0 is also INT (R55, R227). -/
  | pinsB (v : Byte)
  /-- The level on MCLR; `false` is low, which requests a reset (R55, R231). -/
  | mclr (high : Bool)
  /-- An edge on RA4/T0CKI, low to high if `rising`: one external Timer0 tick if OPTION_REG selects
  the source and the edge (R221, R231). -/
  | t0Edge (rising : Bool)
  /-- The watchdog's period has elapsed (R224, R231). -/
  | wdtTimeout
  /-- The supply voltage rises: a power-on reset (R231, R250). -/
  | powerOn
  deriving DecidableEq, Repr

/-- The state of the machine (R20). -/
@[ext]
structure State where
  /-- The parameters of rule R7: fixed for the machine, no step changes them (assumption 1). -/
  cfg : Params
  /-- The program image (R72): fixed, no step changes it (R73; assumption 2). -/
  prog : ProgMem
  /-- The working register (R21). -/
  w : Byte
  /-- The program counter (R22). Between steps it is the address of the next instruction; while an
  instruction executes, after `State.advance`, it is the hardware PC, the address after it (R24). -/
  pc : ProgAddr
  /-- PCLATH, 5 bits (R26). -/
  pclath : BitVec 5
  /-- The 8-level return stack (R27). -/
  stack : Vector ProgAddr 8
  /-- The number of live entries, 0 to 8, under `STACK_POLICY = fault` (R27). -/
  sp : Fin 9
  /-- The 3-bit pointer under `STACK_POLICY = circular` (R29), 0 after every reset (D8). -/
  stackPtr : Fin 8
  /-- STATUS: IRP RP1 RP0 /TO /PD Z DC C, bits 7 to 0 (R30). -/
  status : Byte
  /-- FSR (R43). -/
  fsr : Byte
  /-- TMR0 (R42). -/
  tmr0 : Byte
  /-- OPTION_REG: RBPU INTEDG T0CS T0SE PSA PS2 PS1 PS0, bits 7 to 0 (R48). -/
  optionReg : Byte
  /-- INTCON: GIE EEIE T0IE INTE RBIE T0IF INTF RBIF, bits 7 to 0 (R47). -/
  intcon : Byte
  /-- The PORTA output latch, 5 bits (R44). -/
  latA : BitVec 5
  /-- TRISA, 5 bits (R49). -/
  trisA : BitVec 5
  /-- The PORTB output latch (R45). -/
  latB : Byte
  /-- TRISB (R49). -/
  trisB : Byte
  /-- EEDATA (R46). -/
  eedata : Byte
  /-- EEADR (R46). -/
  eeadr : Byte
  /-- EECON1: EEIF WRERR WREN WR RD, bits 4 to 0 (R50). -/
  eecon1 : BitVec 5
  /-- The 68 general purpose registers 0Ch to 4Fh (R51). -/
  ram : Memory
  /-- The data EEPROM array (R56). -/
  eeprom : Memory
  /-- The watchdog count; its width is in no source (R53). -/
  wdt : Nat
  /-- The prescaler count, 8 bits (R53, R221). -/
  prescaler : Byte
  /-- The core is asleep (R54). -/
  asleep : Bool
  /-- Instruction cycles for which Timer0 stays inhibited, 0 to 2 (R222). -/
  t0Inhibit : Fin 3
  /-- The levels of RB7:RB4 at the last read of PORTB (R225). -/
  rbLast : BitVec 4
  /-- The outside levels on RA4:RA0 (R55). -/
  pinA : BitVec 5
  /-- The outside levels on RB7:RB0 (R55). -/
  pinB : Byte
  /-- The level on MCLR; `false` is low (R55). -/
  pinMclr : Bool
  /-- The model's own field: what the environment will do at each coming boundary (R210, R231), one
  list of events for each boundary. When it is empty the environment does nothing (R256). -/
  env : List (List EnvEvent)
  /-- The model's own field: the locations not written since power-on, the marks of rule R59 turned
  round. Read and changed only under `UNINIT_POLICY = fault`. -/
  unwritten : List UnknownLoc
  /-- The model's own field: how many resets the run has seen, the argument of the free values of
  Config (assumptions 8 and 30). -/
  resets : Nat
  /-- The model's own field: the cycles `cyc` of the last step (R232, R265). -/
  cyc : Nat
  deriving DecidableEq, Repr

/-- What `Unmodelled` names (R201). -/
inductive Unmodelled where
  /-- A write to EECON1 or EECON2: `Unmodelled("EEPROM")` (R228). -/
  | eeprom
  /-- DECFSZ or INCFSZ with PCL as destination: `Unmodelled("skip with PCL destination")` (R83). -/
  | skipWithPclDestination
  deriving DecidableEq, Repr

/-- The faults of the model (R201). The hardware raises none of them (R200); each says that the spec
gives the situation no meaning or that the configured policy refuses it. All are safe: the model
stops where the hardware goes on, and no claim about a run that goes on follows. -/
inductive Fault where
  /-- Raised by the step when the fetched word is one of the 376 unassigned words (R115). Safe. -/
  | illegalInstruction (pc : ProgAddr) (w : InstrWord)
  /-- Raised by the fetch when the image defines no word at the address modulo PROG_WORDS (R72).
  Safe. -/
  | fetchOutsideProgram (a : ProgAddr)
  /-- Raised by CALL and by interrupt entry with 8 live entries under STACK_POLICY = fault (R29).
  Safe. -/
  | stackOverflow (pc : ProgAddr)
  /-- Raised by RETURN, RETLW and RETFIE with no live entry under STACK_POLICY = fault (R29). Safe. -/
  | stackUnderflow (pc : ProgAddr)
  /-- Raised under UNINIT_POLICY = fault by an instruction whose effect depends on a location not
  written since power-on (R59). Never raised under the default policy. Safe. -/
  | uninitializedRead (l : UnknownLoc)
  /-- Raised by an instruction that would write EECON1 or EECON2, or by DECFSZ or INCFSZ with PCL as
  destination (R201). Safe. -/
  | unmodelled (what : Unmodelled) (pc : ProgAddr)
  deriving DecidableEq, Repr

/-- Why the model gives an instruction no meaning. -/
inductive Refusal where
  /-- Raised by an arm of `exec` whose instruction has no meaning in the model yet. No arm does. Safe. -/
  | notModelled (mnemonic : String)
  deriving DecidableEq, Repr

/-- The machine right after power-on reset (R58), with the parameters at their defaults (R7), no
program image, all pins low but MCLR, and an environment that does nothing (R256). The values the
spec calls unknown or leaves to the environment are 0 here (DESIGN CHOICE, unsafe: assumptions 4
to 7); every statement over all states holds for every other value of them too. -/
def State.reset : State where
  cfg := Config.defaults
  prog := []
  w := 0x00
  pc := Config.resetVector
  pclath := 0
  stack := Vector.replicate 8 0
  sp := 0
  stackPtr := 0
  status := 0x18
  fsr := 0x00
  tmr0 := 0x00
  optionReg := 0xFF
  intcon := 0x00
  latA := 0
  trisA := 0x1F
  latB := 0x00
  trisB := 0xFF
  eedata := 0x00
  eeadr := 0x00
  eecon1 := 0
  ram := []
  eeprom := []
  wdt := 0
  prescaler := 0x00
  asleep := false
  t0Inhibit := 0
  rbLast := 0
  pinA := 0
  pinB := 0x00
  pinMclr := true
  env := []
  unwritten := Config.unknownLocs
  resets := 0
  cyc := 0

end Sys2Proof.Machine
end

