-- ==== Sys2Proof/Machine/Flags.lean ====
section
/-! DEFINITION. The bits of STATUS, INTCON and OPTION_REG, the flag updates of rule R39, and the
computations of the instructions: the arithmetic of rule R121, the logic, rotate and swap operations
of spec/40_byte_oriented.md, each with the flags it writes. -/

namespace Sys2Proof.Machine

/-- Bit `i` of `b` becomes `v`; every other bit is kept. -/
def setBit {n : Nat} (i : Nat) (v : Bool) (b : BitVec n) : BitVec n :=
  if v then b ||| (1#n <<< i) else b &&& ~~~(1#n <<< i)

/-- Bit `i` of `b` becomes the value given, if one is given. -/
def setBitOpt {n : Nat} (i : Nat) : Option Bool → BitVec n → BitVec n
  | none, b => b
  | some v, b => setBit i v b

/-- STATUS.C, bit 0 (R37). -/
def State.flagC (s : State) : Bool := s.status.getLsbD 0

/-- STATUS.DC, bit 1 (R36). -/
def State.flagDC (s : State) : Bool := s.status.getLsbD 1

/-- STATUS.Z, bit 2 (R35). -/
def State.flagZ (s : State) : Bool := s.status.getLsbD 2

/-- STATUS./PD, bit 3 (R34). -/
def State.flagPD (s : State) : Bool := s.status.getLsbD 3

/-- STATUS./TO, bit 4 (R33). -/
def State.flagTO (s : State) : Bool := s.status.getLsbD 4

/-- STATUS.RP0, bit 5 (R32). -/
def State.rp0 (s : State) : Bool := s.status.getLsbD 5

/-- STATUS with `/TO` (bit 4) and `/PD` (bit 3) set as given (R33, R34). -/
def withToPd (timeOut powerDown : Bool) (status : Byte) : Byte :=
  setBit 4 timeOut (setBit 3 powerDown status)

/-- INTCON.GIE, bit 7 (R47). -/
def State.gie (s : State) : Bool := s.intcon.getLsbD 7

/-- OPTION_REG.INTEDG, bit 6 (R48). -/
def State.intedg (s : State) : Bool := s.optionReg.getLsbD 6

/-- OPTION_REG.T0CS, bit 5 (R48). -/
def State.t0cs (s : State) : Bool := s.optionReg.getLsbD 5

/-- OPTION_REG.T0SE, bit 4 (R48): 1 selects the high-to-low edge of RA4/T0CKI. -/
def State.t0se (s : State) : Bool := s.optionReg.getLsbD 4

/-- OPTION_REG.PSA, bit 3 (R48). -/
def State.psa (s : State) : Bool := s.optionReg.getLsbD 3

/-- OPTION_REG.PS2:PS0, bits 2:0 (R48). -/
def State.ps (s : State) : Nat := (s.optionReg.extractLsb' 0 3).toNat

/-- The TMR0 rate `2^(PS+1)` of rule R48. -/
def State.t0Rate (s : State) : Nat := 2 ^ (s.ps + 1)

/-- The WDT rate `2^PS` of rule R48: the factor on the watchdog's period when PSA = 1 (R224). No rule
of the step reads it. -/
def State.wdtRate (s : State) : Nat := 2 ^ s.ps

/-- `Pending()` of rule R211: some source has its enable bit and its flag bit both 1. -/
def State.pending (s : State) : Bool :=
  (s.intcon.getLsbD 5 && s.intcon.getLsbD 2) || (s.intcon.getLsbD 4 && s.intcon.getLsbD 1)
    || (s.intcon.getLsbD 3 && s.intcon.getLsbD 0) || (s.intcon.getLsbD 6 && s.eecon1.getLsbD 4)

/-- The interrupt part of `WakeCondition()` of rule R232: Timer0 cannot wake the core. -/
def State.wakePending (s : State) : Bool :=
  (s.intcon.getLsbD 4 && s.intcon.getLsbD 1) || (s.intcon.getLsbD 3 && s.intcon.getLsbD 0)
    || (s.intcon.getLsbD 6 && s.eecon1.getLsbD 4)

/-- The flags an instruction writes and their values; `none` is a flag it leaves alone (R39). -/
structure FlagUpdate where
  z : Option Bool
  dc : Option Bool
  c : Option Bool
  deriving DecidableEq, Repr

/-- The instruction writes no flag (R39). -/
def noFlags : FlagUpdate := ⟨none, none, none⟩

/-- The instruction affects at least one of Z, DC, C (R38). -/
def FlagUpdate.affectsAny (u : FlagUpdate) : Bool := u.z.isSome || u.dc.isSome || u.c.isSome

/-- STATUS after the flags are written: Z is bit 2, DC bit 1, C bit 0 (R30). -/
def FlagUpdate.apply (u : FlagUpdate) (status : Byte) : Byte :=
  setBitOpt 0 u.c (setBitOpt 1 u.dc (setBitOpt 2 u.z status))

/-- The flag locations the update writes, for the marks of rule R59. -/
def FlagUpdate.locs (u : FlagUpdate) : List Config.UnknownLoc :=
  (if u.z.isSome then [.z] else []) ++ (if u.dc.isSome then [.dc] else [])
    ++ (if u.c.isSome then [.c] else [])

/-- An instruction's 8-bit result and the flags it writes. -/
structure ByteResult where
  value : Byte
  flags : FlagUpdate
  deriving DecidableEq, Repr

/-- A result that writes no flag (MOVLW, MOVWF, SWAPF, DECFSZ, INCFSZ: R39). -/
def plainResult (v : Byte) : ByteResult := ⟨v, noFlags⟩

/-- A result that writes Z alone: 1 iff the result is 0 (R35, R39). -/
def zResult (v : Byte) : ByteResult := ⟨v, ⟨some (v == 0), none, none⟩⟩

/-- `Add8(a, b)` of rule R121. -/
def add8 (a b : Byte) : ByteResult :=
  let sum := a.toNat + b.toNat
  let result := BitVec.ofNat 8 sum
  ⟨result, ⟨some (result == 0), some (16 ≤ a.toNat % 16 + b.toNat % 16), some (256 ≤ sum)⟩⟩

/-- `Sub8(m, s)` of rule R121: the two's complement of `s` is added to `m`; C and DC are 1 for no
borrow. -/
def sub8 (m s : Byte) : ByteResult :=
  let t := m.toNat + (s ^^^ 0xFF).toNat + 1
  let result := BitVec.ofNat 8 t
  ⟨result,
    ⟨some (result == 0), some (16 ≤ m.toNat % 16 + (s ^^^ 0xFF).toNat % 16 + 1), some (256 ≤ t)⟩⟩

/-- RLF: 9-bit rotation of `C : v` to the left (R135); only C is written. -/
def rotateLeft (v : Byte) (c : Bool) : ByteResult :=
  ⟨setBit 0 c (v <<< 1), ⟨none, none, some (v.getLsbD 7)⟩⟩

/-- RRF: 9-bit rotation of `C : v` to the right (R136); only C is written. -/
def rotateRight (v : Byte) (c : Bool) : ByteResult :=
  ⟨setBit 7 c (v >>> 1), ⟨none, none, some (v.getLsbD 0)⟩⟩

/-- SWAPF: the two nibbles exchanged (R138). -/
def swapNibbles (v : Byte) : Byte := v.extractLsb' 0 4 ++ v.extractLsb' 4 4

end Sys2Proof.Machine
end

