-- ==== Sys2Proof/Machine/Memory.lean ====
section
/-! DEFINITION. Memory as lists in one canonical form: the reads, the writes and the form itself, for
byte memory (the GPRs and the data EEPROM) and for the program image (rules R51, R56, R72). -/

namespace Sys2Proof.Machine

/-- The value an address has in a list of address and value pairs. -/
def cellsFind {α : Type} (a : Nat) : List (Nat × α) → Option α
  | [] => none
  | (b, v) :: rest => if b = a then some v else cellsFind a rest

/-- Gives address `a` the value `v`, keeping the addresses rising. -/
def cellsInsert {α : Type} (a : Nat) (v : α) : List (Nat × α) → List (Nat × α)
  | [] => [(a, v)]
  | (b, u) :: rest =>
    if a < b then (a, v) :: (b, u) :: rest
    else if a = b then (a, v) :: rest
    else (b, u) :: cellsInsert a v rest

/-- Takes address `a` out of the list. -/
def cellsErase {α : Type} (a : Nat) (m : List (Nat × α)) : List (Nat × α) :=
  m.filter (fun c => c.1 != a)

/-- The addresses of a list rise strictly. -/
abbrev cellsRise {α : Type} (m : List (Nat × α)) : Prop :=
  m.Pairwise (fun x y => x.1 < y.1)

/-- The byte at address `a`; an unlisted address reads as `Config.memFill`. -/
def Memory.read (m : Memory) (a : Nat) : Byte := (cellsFind a m).getD Config.memFill

/-- Writes the byte at address `a`; writing `Config.memFill` takes the entry out. -/
def Memory.write (m : Memory) (a : Nat) (v : Byte) : Memory :=
  if v = Config.memFill then cellsErase a m else cellsInsert a v m

/-- The canonical form of byte memory over the addresses `lo` to `hi - 1`. -/
abbrev Memory.wf (lo hi : Nat) (m : Memory) : Prop :=
  cellsRise m ∧ ∀ c ∈ m, c.2 ≠ Config.memFill ∧ lo ≤ c.1 ∧ c.1 < hi

/-- The word of the program image at a physical address, if it defines one (R72). -/
def ProgMem.read (m : ProgMem) (a : Nat) : Option InstrWord := cellsFind a m

/-- Puts a word into the program image. No instruction does this (R73): it stands for the load of
the image from outside. -/
def ProgMem.write (m : ProgMem) (a : Nat) (v : InstrWord) : ProgMem := cellsInsert a v m

/-- The canonical form of the program image over `0` to `size - 1`. -/
abbrev ProgMem.wf (size : Nat) (m : ProgMem) : Prop :=
  cellsRise m ∧ ∀ c ∈ m, c.1 < size

end Sys2Proof.Machine
end

