-- ==== Sys2Proof/Machine/Operands.lean ====
section
/-! DEFINITION. The operand forms (rule R84): the effective address of an `f` field (R75 to R77), the
register an 8-bit data address names (R79), the value a read of it gives (R80), the value of a port
(R226), and the locations an operand depends on for the marks of rule R59. In this file a state is
one in which an instruction executes: its `pc` is the hardware PC, the address after the instruction
(R24). -/

namespace Sys2Proof.Machine

open Sys2Proof.Config (UnknownLoc)

/-- The registers of rule R79. `absent` has no storage: INDF itself and the unimplemented addresses.
EECON2 has none either, but a write to it is not ignored (R81). `gpr` holds an address 0Ch to 4Fh. -/
inductive Reg where
  | absent
  | tmr0
  | optionReg
  | pcl
  | status
  | fsr
  | portA
  | trisA
  | portB
  | trisB
  | eedata
  | eecon1
  | eeadr
  | eecon2
  | pclath
  | intcon
  | gpr (a : DataAddr)
  deriving DecidableEq, Repr

/-- `phys(a)` of rule R79. -/
def phys (a : DataAddr) : Reg :=
  match a.toNat with
  | 0x01 => .tmr0
  | 0x81 => .optionReg
  | 0x02 => .pcl
  | 0x82 => .pcl
  | 0x03 => .status
  | 0x83 => .status
  | 0x04 => .fsr
  | 0x84 => .fsr
  | 0x05 => .portA
  | 0x85 => .trisA
  | 0x06 => .portB
  | 0x86 => .trisB
  | 0x08 => .eedata
  | 0x88 => .eecon1
  | 0x09 => .eeadr
  | 0x89 => .eecon2
  | 0x0A => .pclath
  | 0x8A => .pclath
  | 0x0B => .intcon
  | 0x8B => .intcon
  | n =>
    if 0x0C ≤ n ∧ n ≤ 0x4F then .gpr a
    else if 0x8C ≤ n ∧ n ≤ 0xCF then .gpr (a - 0x80)
    else .absent

/-- `ea(f)` of rule R76: indirect through FSR when `f = 0`, else RP0 as bit 7 over `f`. RP1 and IRP
take no part (R31). -/
def State.ea (s : State) (f : FileField) : DataAddr :=
  if f = 0 then s.fsr else BitVec.ofBool s.rp0 ++ f

/-- The register an `f` field names. -/
def State.operand (s : State) (f : FileField) : Reg := phys (s.ea f)

/-- `PortRead(A)` of rule R226: an input pin gives the outside level, an output pin its latch bit;
RA4 is open drain and as an output with latch 1 gives the outside level. -/
def State.portReadA (s : State) : BitVec 5 :=
  let outside := s.trisA ||| (s.latA &&& 0b10000)
  (s.pinA &&& outside) ||| (s.latA &&& ~~~outside)

/-- `PortRead(B)` of rule R226. -/
def State.portReadB (s : State) : Byte := (s.pinB &&& s.trisB) ||| (s.latB &&& ~~~s.trisB)

/-- A 5-bit register as the byte a read gives: bits 7:5 are 0 (R80). -/
def low5 (v : BitVec 5) : Byte := 0#3 ++ v

/-- The value a read of a register gives (R80). -/
def State.regValue (s : State) : Reg → Byte
  | .absent => 0x00
  | .tmr0 => s.tmr0
  | .optionReg => s.optionReg
  | .pcl => s.pc.extractLsb' 0 8
  | .status => s.status
  | .fsr => s.fsr
  | .portA => low5 s.portReadA
  | .trisA => low5 s.trisA
  | .portB => s.portReadB
  | .trisB => s.trisB
  | .eedata => s.eedata
  | .eecon1 => low5 s.eecon1
  | .eeadr => s.eeadr
  | .eecon2 => 0x00
  | .pclath => low5 s.pclath
  | .intcon => s.intcon
  | .gpr a => s.ram.read a.toNat

/-- `x[f]`: the value an instruction reads through its `f` field (R11). -/
def State.fileValue (s : State) (f : FileField) : Byte := s.regValue (s.operand f)

/-- The location the address of an `f` field depends on: FSR when it is indirect (R76, R59;
assumption 12). -/
def pointerNeeds (f : FileField) : List UnknownLoc := if f = 0 then [.fsr] else []

/-- The unknown locations the whole value read from a register depends on (R59). A port depends on
its latch only when some pin of it is an output. -/
def State.readNeeds (s : State) : Reg → List UnknownLoc
  | .tmr0 => [.tmr0]
  | .status => [.z, .dc, .c]
  | .fsr => [.fsr]
  | .portA => if s.trisA = 0x1F then [] else [.latA]
  | .portB => if s.trisB = 0xFF then [] else [.latB]
  | .eedata => [.eedata]
  | .eecon1 => [.wrerr]
  | .eeadr => [.eeadr]
  | .intcon => [.rbif]
  | .gpr a => [.gpr a]
  | _ => []

/-- The unknown locations one bit of a register depends on (R59): what BTFSC and BTFSS need. -/
def State.bitNeeds (s : State) (r : Reg) (b : BitField) : List UnknownLoc :=
  match r with
  | .status => match b.toNat with
    | 0 => [.c]
    | 1 => [.dc]
    | 2 => [.z]
    | _ => []
  | .intcon => if b = 0 then [.rbif] else []
  | .eecon1 => if b = 3 then [.wrerr] else []
  | .portA => if b.toNat < 5 && !s.trisA.getLsbD b.toNat then [.latA] else []
  | .portB => if s.trisB.getLsbD b.toNat then [] else [.latB]
  | r => s.readNeeds r

/-- The unknown locations BCF and BSF need (R59): on a register with a mark per bit, none, since the
bits they do not name are passed through and the one they name is not read. -/
def State.bitWriteNeeds (s : State) (r : Reg) : List UnknownLoc :=
  match r with
  | .status => []
  | .intcon => []
  | .eecon1 => []
  | r => s.readNeeds r

/-- The unknown locations a write of a whole register makes known (R59). On STATUS the three flag
bits are reached only when the instruction affects no flag (R38). -/
def writeMarks (r : Reg) (u : FlagUpdate) : List UnknownLoc :=
  match r with
  | .tmr0 => [.tmr0]
  | .status => if u.affectsAny then [] else [.z, .dc, .c]
  | .fsr => [.fsr]
  | .portA => [.latA]
  | .portB => [.latB]
  | .eedata => [.eedata]
  | .eeadr => [.eeadr]
  | .intcon => [.rbif]
  | .gpr a => [.gpr a]
  | _ => []

/-- The unknown locations BCF and BSF make known (R59): on a register with a mark per bit, the bit
they name alone. -/
def bitWriteMarks (r : Reg) (b : BitField) : List UnknownLoc :=
  match r with
  | .status => match b.toNat with
    | 0 => [.c]
    | 1 => [.dc]
    | 2 => [.z]
    | _ => []
  | .intcon => if b = 0 then [.rbif] else []
  | r => writeMarks r noFlags

end Sys2Proof.Machine
end

