-- ==== Sys2Proof/Machine/Ops.lean ====
section
/-! DEFINITION. The named operations the instructions share: the hardware PC and the skip (R24, R25,
R122), the marks of rule R59, the writes of `W`, the flags and the file registers (R81, R38, R83,
R222), the return stack (R27 to R29), interrupt entry (R213) and the return from it (R173), and the
shapes common to a family. -/

namespace Sys2Proof.Machine

open Sys2Proof.Config (UnknownLoc)

/-- What an instruction or a step answers. -/
abbrev Result := Host.Outcome State Fault Refusal

/-- Does more with the next state, and keeps a fault or a refusal. -/
def onNext (g : State → State) : Result → Result
  | .next s => .next (g s)
  | .fault e => .fault e
  | .refused r => .refused r

/-- The start of every instruction: the hardware PC holds the address after it (R24, R25) and the
instruction costs one cycle until something makes it two (R265). -/
def State.advance (s : State) : State := { s with pc := s.pc + 1, cyc := 1 }

/-- The address of the executing instruction, recovered from the hardware PC (R24). -/
def State.instrAddr (s : State) : ProgAddr := s.pc - 1

/-- A transfer of control: two cycles (R265). -/
def State.jump (s : State) (t : ProgAddr) : State := { s with pc := t, cyc := 2 }

/-- `Skip(cond)` of rule R122: one more word is passed over and the instruction takes two cycles. -/
def State.skipIf (s : State) (cond : Bool) : State := if cond then s.jump (s.pc + 1) else s

/-- The locations still unwritten after those of `ls` are written (R59). Marks exist only under
`UNINIT_POLICY = fault`. -/
def State.marksAfter (s : State) (ls : List UnknownLoc) : List UnknownLoc :=
  match s.cfg.uninitPolicy with
  | .draw => s.unwritten
  | .fault => s.unwritten.filter (fun l => !ls.contains l)

/-- Marks locations as written (R59). -/
def State.markWritten (s : State) (ls : List UnknownLoc) : State :=
  { s with unwritten := s.marksAfter ls }

/-- The first of the locations an instruction depends on that has not been written, under
`UNINIT_POLICY = fault` (R59); under `draw` there is none. -/
def State.firstUnwritten (s : State) (needs : List UnknownLoc) : Option UnknownLoc :=
  match s.cfg.uninitPolicy with
  | .draw => none
  | .fault => needs.find? (fun l => s.unwritten.contains l)

/-- Writes `W` (R21). -/
def State.setW (s : State) (v : Byte) : State := { s with w := v }.markWritten [.w]

/-- Writes the flags an instruction affects (R39); step (4) of rule R12. -/
def State.applyFlags (s : State) (u : FlagUpdate) : State :=
  { s with status := u.apply s.status }.markWritten u.locs

/-- The bits of STATUS a data write reaches (R38): 7:5 always, 2:0 only when the instruction affects
no flag; `/TO` and `/PD` never. -/
def statusWriteMask (u : FlagUpdate) : Byte := if u.affectsAny then 0xE0 else 0xE7

/-- STATUS after a data write of `v` by an instruction with the flag update `u` (R38). -/
def statusAfterWrite (u : FlagUpdate) (v old : Byte) : Byte :=
  (v &&& statusWriteMask u) ||| (old &&& ~~~statusWriteMask u)

/-- The effect of `MemWrite` on a register (R81), the marks apart. A write to PCL is a jump (R83); a
write to TMR0 clears the prescaler when Timer0 owns it and inhibits counting for two cycles (R222).
EECON1 and EECON2 are not written: `State.writeReg` stops before. -/
def State.storeReg (s : State) (u : FlagUpdate) (v : Byte) : Reg → State
  | .absent => s
  | .tmr0 =>
    { s with tmr0 := v, prescaler := if s.psa then s.prescaler else 0, t0Inhibit := 2 }
  | .optionReg => { s with optionReg := v }
  | .pcl => s.jump (s.pclath ++ v)
  | .status => { s with status := statusAfterWrite u v s.status }
  | .fsr => { s with fsr := v }
  | .portA => { s with latA := v.extractLsb' 0 5 }
  | .trisA => { s with trisA := v.extractLsb' 0 5 }
  | .portB => { s with latB := v }
  | .trisB => { s with trisB := v }
  | .eedata => { s with eedata := v }
  | .eecon1 => s
  | .eeadr => { s with eeadr := v }
  | .eecon2 => s
  | .pclath => { s with pclath := v.extractLsb' 0 5 }
  | .intcon => { s with intcon := v }
  | .gpr a => { s with ram := s.ram.write a.toNat v }

/-- The side effect of a read: a read of PORTB latches RB7:RB4 (R80, R225). -/
def State.afterRead (s : State) : Reg → State
  | .portB => { s with rbLast := s.pinB.extractLsb' 4 4 }
  | _ => s

/-- The register is one of the EEPROM's control registers, which no write of the model reaches
(R81, R228). -/
def Reg.isEecon : Reg → Bool
  | .eecon1 => true
  | .eecon2 => true
  | _ => false

/-- `x[f] <- v` (R11, R81): the write, then the flags, then the marks. -/
def State.writeReg (s : State) (r : Reg) (x : ByteResult) (marks : List UnknownLoc) : Result :=
  if r.isEecon then .fault (.unmodelled .eeprom s.instrAddr)
  else .next (((s.storeReg x.flags x.value r).markWritten marks).applyFlags x.flags)

/-- `dest(d, f) <- v` (R120), with the flags. -/
def State.writeDest (s : State) (d : Dest) (r : Reg) (x : ByteResult) : Result :=
  match d with
  | .w => .next ((s.setW x.value).applyFlags x.flags)
  | .f => s.writeReg r x (writeMarks r x.flags)

/-- Goes on with `k` if every location needed is known, else stops (R59, R202). -/
def State.ifKnown (s : State) (needs : List UnknownLoc) (k : State → Result) : Result :=
  match s.firstUnwritten needs with
  | some l => .fault (.uninitializedRead l)
  | none => k s

/-- A literal instruction (R160): `W` and the literal give `x`, which goes to `W`. -/
def literalOp (needs : List UnknownLoc) (x : ByteResult) (s : State) : Result :=
  s.advance.ifKnown needs fun t => .next ((t.setW x.value).applyFlags x.flags)

/-- A byte-oriented instruction with a destination bit (R101, R120): `op` gives the result from the
value read; `needs` are the locations it depends on beside the register. -/
def byteOp (needs : List UnknownLoc) (op : Byte → ByteResult) (d : Dest) (f : FileField)
    (s : State) : Result :=
  let t := s.advance
  let r := t.operand f
  t.ifKnown (pointerNeeds f ++ t.readNeeds r ++ needs) fun t =>
    (t.afterRead r).writeDest d r (op (t.regValue r))

/-- DECFSZ and INCFSZ (R129, R131): as `byteOp` without flags, then the skip when the result is 0.
PCL as destination has no meaning (R83). -/
def byteSkipOp (op : Byte → Byte) (d : Dest) (f : FileField) (s : State) : Result :=
  let t := s.advance
  let r := t.operand f
  t.ifKnown (pointerNeeds f ++ t.readNeeds r) fun t =>
    let v := op (t.regValue r)
    if d = .f ∧ r = .pcl then .fault (.unmodelled .skipWithPclDestination t.instrAddr)
    else onNext (fun u => u.skipIf (v == 0)) ((t.afterRead r).writeDest d r (plainResult v))

/-- CLRF and MOVWF (R102): the register is written and not read. -/
def byteWriteOp (needs : List UnknownLoc) (x : ByteResult) (f : FileField) (s : State) : Result :=
  let t := s.advance
  let r := t.operand f
  t.ifKnown (pointerNeeds f ++ needs) fun t => t.writeReg r x (writeMarks r x.flags)

/-- BCF and BSF (R150, R82): the whole register is read, one bit changed, the whole written back. -/
def bitWriteOp (v : Bool) (b : BitField) (f : FileField) (s : State) : Result :=
  let t := s.advance
  let r := t.operand f
  t.ifKnown (pointerNeeds f ++ t.bitWriteNeeds r) fun t =>
    (t.afterRead r).writeReg r (plainResult (setBit b.toNat v (t.regValue r))) (bitWriteMarks r b)

/-- BTFSC and BTFSS (R150): the register is read, and the next word skipped if the bit is `v`. -/
def bitTestOp (v : Bool) (b : BitField) (f : FileField) (s : State) : Result :=
  let t := s.advance
  let r := t.operand f
  t.ifKnown (pointerNeeds f ++ t.bitNeeds r b) fun t =>
    .next ((t.afterRead r).skipIf ((t.regValue r).getLsbD b.toNat == v))

/-- `Push(v)` (R27, R29); `at` is the address a fault carries. -/
def State.push (s : State) (v : ProgAddr) (at' : ProgAddr) : Except Fault State :=
  match s.cfg.stackPolicy with
  | .fault =>
    if h : s.sp.val < 8 then
      .ok { s with stack := s.stack.set s.sp.val v h, sp := ⟨s.sp.val + 1, by omega⟩ }
    else .error (.stackOverflow at')
  | .circular =>
    .ok { s with stack := s.stack.set s.stackPtr.val v s.stackPtr.isLt, stackPtr := s.stackPtr + 1 }

/-- `Pop()` (R28, R29): the address popped and the state after; the entry keeps its value. -/
def State.pop (s : State) (at' : ProgAddr) : Except Fault (ProgAddr × State) :=
  match s.cfg.stackPolicy with
  | .fault =>
    if h : 0 < s.sp.val then
      .ok (s.stack[s.sp.val - 1]'(by omega), { s with sp := ⟨s.sp.val - 1, by omega⟩ })
    else .error (.stackUnderflow at')
  | .circular =>
    .ok (s.stack[(s.stackPtr - 1).val]'(s.stackPtr - 1).isLt, { s with stackPtr := s.stackPtr - 1 })

/-- The target of CALL and GOTO (R170): `PCLATH[4:3] : k`. -/
def State.target (s : State) (k : BitVec 11) : ProgAddr := s.pclath.extractLsb' 3 2 ++ k

/-- Interrupt entry (R213), the one exception the machine takes: the return address is pushed, GIE
cleared, and execution goes to the vector; two cycles. Nothing else is saved or changed. -/
def State.interruptEntry (s : State) : Except Fault State :=
  match s.push s.pc s.pc with
  | .error e => .error e
  | .ok t => .ok ({ t with intcon := setBit 7 false t.intcon }.jump Config.interruptVector)

/-- The pop that RETURN, RETLW and RETFIE share: `pc <- Pop()`, two cycles (R173 to R175). -/
def State.popReturn (s : State) : Result :=
  match s.pop s.instrAddr with
  | .error e => .fault e
  | .ok (t, s') => .next (s'.jump t)

/-- The return from an interrupt: `pc <- Pop(); INTCON.GIE <- 1` (R173, R215). -/
def State.interruptReturn (s : State) : Result :=
  onNext (fun t => { t with intcon := setBit 7 true t.intcon }) s.popReturn

/-- What CLRWDT and SLEEP share: the watchdog is cleared, and the prescaler when the watchdog owns it
(R181, R183). -/
def State.clearWatchdog (s : State) : State :=
  { s with wdt := 0, prescaler := if s.psa then 0 else s.prescaler }

end Sys2Proof.Machine
end

