-- ==== Sys2Proof/Machine/BitOriented.lean ====
section
/-! DEFINITION. The bit-oriented file register instructions (rules R151 to R154,
spec/41_bit_oriented.md). -/

namespace Sys2Proof.Machine

/-- BCF: clear bit b of f (R151). -/
def execBcf (b : BitField) (f : FileField) (s : State) : Result := bitWriteOp false b f s

/-- BSF: set bit b of f (R152). -/
def execBsf (b : BitField) (f : FileField) (s : State) : Result := bitWriteOp true b f s

/-- BTFSC: bit test f, skip if clear (R153). -/
def execBtfsc (b : BitField) (f : FileField) (s : State) : Result := bitTestOp false b f s

/-- BTFSS: bit test f, skip if set (R154). -/
def execBtfss (b : BitField) (f : FileField) (s : State) : Result := bitTestOp true b f s

end Sys2Proof.Machine
end

