-- ==== Sys2Proof/Machine/ByteOriented.lean ====
section
/-! DEFINITION. The byte-oriented file register instructions (rules R123 to R139,
spec/40_byte_oriented.md). Each is one line over a shape of Ops.lean and a computation of
Flags.lean. -/

namespace Sys2Proof.Machine

/-- ADDWF: add W and f (R123). -/
def execAddwf (d : Dest) (f : FileField) (s : State) : Result :=
  byteOp [.w] (fun v => add8 s.w v) d f s

/-- ANDWF: AND W with f (R124). -/
def execAndwf (d : Dest) (f : FileField) (s : State) : Result :=
  byteOp [.w] (fun v => zResult (s.w &&& v)) d f s

/-- CLRF: clear f, Z is 1 (R125). -/
def execClrf (f : FileField) (s : State) : Result :=
  byteWriteOp [] (zResult 0x00) f s

/-- CLRW: clear W, Z is 1 (R126). -/
def execClrw (s : State) : Result :=
  literalOp [] (zResult 0x00) s

/-- COMF: complement f (R127). -/
def execComf (d : Dest) (f : FileField) (s : State) : Result :=
  byteOp [] (fun v => zResult (v ^^^ 0xFF)) d f s

/-- DECF: decrement f (R128). -/
def execDecf (d : Dest) (f : FileField) (s : State) : Result :=
  byteOp [] (fun v => zResult (v - 1)) d f s

/-- DECFSZ: decrement f, skip if zero (R129). -/
def execDecfsz (d : Dest) (f : FileField) (s : State) : Result :=
  byteSkipOp (fun v => v - 1) d f s

/-- INCF: increment f (R130). -/
def execIncf (d : Dest) (f : FileField) (s : State) : Result :=
  byteOp [] (fun v => zResult (v + 1)) d f s

/-- INCFSZ: increment f, skip if zero (R131). -/
def execIncfsz (d : Dest) (f : FileField) (s : State) : Result :=
  byteSkipOp (fun v => v + 1) d f s

/-- IORWF: inclusive OR W with f (R132). -/
def execIorwf (d : Dest) (f : FileField) (s : State) : Result :=
  byteOp [.w] (fun v => zResult (s.w ||| v)) d f s

/-- MOVF: move f (R133). -/
def execMovf (d : Dest) (f : FileField) (s : State) : Result :=
  byteOp [] (fun v => zResult v) d f s

/-- MOVWF: move W to f (R134). -/
def execMovwf (f : FileField) (s : State) : Result :=
  byteWriteOp [.w] (plainResult s.w) f s

/-- RLF: rotate f left through carry (R135). -/
def execRlf (d : Dest) (f : FileField) (s : State) : Result :=
  byteOp [.c] (fun v => rotateLeft v s.flagC) d f s

/-- RRF: rotate f right through carry (R136). -/
def execRrf (d : Dest) (f : FileField) (s : State) : Result :=
  byteOp [.c] (fun v => rotateRight v s.flagC) d f s

/-- SUBWF: subtract W from f (R137). -/
def execSubwf (d : Dest) (f : FileField) (s : State) : Result :=
  byteOp [.w] (fun v => sub8 v s.w) d f s

/-- SWAPF: swap the nibbles of f (R138). -/
def execSwapf (d : Dest) (f : FileField) (s : State) : Result :=
  byteOp [] (fun v => plainResult (swapNibbles v)) d f s

/-- XORWF: exclusive OR W with f (R139). -/
def execXorwf (d : Dest) (f : FileField) (s : State) : Result :=
  byteOp [.w] (fun v => zResult (s.w ^^^ v)) d f s

end Sys2Proof.Machine
end

