-- ==== Sys2Proof/Machine/Control.lean ====
section
/-! DEFINITION. The control transfer instructions (rules R171 to R175, spec/43_control.md). -/

namespace Sys2Proof.Machine

/-- CALL: the address after the CALL is pushed, and the target is `PCLATH[4:3] : k` (R171). -/
def execCall (k : BitVec 11) (s : State) : Result :=
  match s.advance.push s.advance.pc s.pc with
  | .error e => .fault e
  | .ok t => .next (t.jump (t.target k))

/-- GOTO: the target is `PCLATH[4:3] : k` (R172). -/
def execGoto (k : BitVec 11) (s : State) : Result := .next (s.advance.jump (s.target k))

/-- RETFIE: return from interrupt (R173). -/
def execRetfie (s : State) : Result := s.advance.interruptReturn

/-- RETLW: return with the literal in W (R174). -/
def execRetlw (k : Byte) (s : State) : Result := (s.advance.setW k).popReturn

/-- RETURN: return from subroutine (R175). -/
def execReturn (s : State) : Result := s.advance.popReturn

end Sys2Proof.Machine
end

