-- ==== Sys2Proof/Machine/Literal.lean ====
section
/-! DEFINITION. The literal instructions (rules R161 to R166, spec/42_literal.md). -/

namespace Sys2Proof.Machine

/-- ADDLW: add literal to W (R161). -/
def execAddlw (k : Byte) (s : State) : Result := literalOp [.w] (add8 s.w k) s

/-- ANDLW: AND literal with W (R162). -/
def execAndlw (k : Byte) (s : State) : Result := literalOp [.w] (zResult (s.w &&& k)) s

/-- IORLW: inclusive OR literal with W (R163). -/
def execIorlw (k : Byte) (s : State) : Result := literalOp [.w] (zResult (s.w ||| k)) s

/-- MOVLW: move literal to W, which is not read (R164). -/
def execMovlw (k : Byte) (s : State) : Result := literalOp [] (plainResult k) s

/-- SUBLW: subtract W from literal (R165). -/
def execSublw (k : Byte) (s : State) : Result := literalOp [.w] (sub8 k s.w) s

/-- XORLW: exclusive OR literal with W (R166). -/
def execXorlw (k : Byte) (s : State) : Result := literalOp [.w] (zResult (s.w ^^^ k)) s

end Sys2Proof.Machine
end

