-- ==== Sys2Proof/Machine/System.lean ====
section
/-! DEFINITION. The system instructions (rules R181 to R183, spec/44_system.md). -/

namespace Sys2Proof.Machine

/-- CLRWDT: clear the watchdog; `/TO` and `/PD` become 1 (R181). -/
def execClrwdt (s : State) : Result :=
  let t := s.advance.clearWatchdog
  .next { t with status := withToPd true true t.status }

/-- NOP: nothing but the pc (R182). -/
def execNop (s : State) : Result := .next s.advance

/-- SLEEP: clear the watchdog; `/TO` becomes 1 and `/PD` 0; the core falls asleep (R183). -/
def execSleep (s : State) : Result :=
  let t := s.advance.clearWatchdog
  .next { t with status := withToPd true false t.status, asleep := true }

end Sys2Proof.Machine
end

