-- ==== Sys2Proof/Machine/Dispatch.lean ====
section
/-! DEFINITION. The meaning of every instruction: one arm per constructor of Instr, in the order of
spec/opcode_table.json. -/

namespace Sys2Proof.Machine

def exec (i : Instr) (s : State) : Host.Outcome State Fault Refusal :=
  match i with
  | .addlw k => Sys2Proof.Machine.execAddlw k s
  | .addwf d f => Sys2Proof.Machine.execAddwf d f s
  | .andlw k => Sys2Proof.Machine.execAndlw k s
  | .andwf d f => Sys2Proof.Machine.execAndwf d f s
  | .bcf b f => Sys2Proof.Machine.execBcf b f s
  | .bsf b f => Sys2Proof.Machine.execBsf b f s
  | .btfsc b f => Sys2Proof.Machine.execBtfsc b f s
  | .btfss b f => Sys2Proof.Machine.execBtfss b f s
  | .call k => Sys2Proof.Machine.execCall k s
  | .clrf f => Sys2Proof.Machine.execClrf f s
  | .clrw => Sys2Proof.Machine.execClrw s
  | .clrwdt => Sys2Proof.Machine.execClrwdt s
  | .comf d f => Sys2Proof.Machine.execComf d f s
  | .decf d f => Sys2Proof.Machine.execDecf d f s
  | .decfsz d f => Sys2Proof.Machine.execDecfsz d f s
  | .goto k => Sys2Proof.Machine.execGoto k s
  | .incf d f => Sys2Proof.Machine.execIncf d f s
  | .incfsz d f => Sys2Proof.Machine.execIncfsz d f s
  | .iorlw k => Sys2Proof.Machine.execIorlw k s
  | .iorwf d f => Sys2Proof.Machine.execIorwf d f s
  | .movlw k => Sys2Proof.Machine.execMovlw k s
  | .movf d f => Sys2Proof.Machine.execMovf d f s
  | .movwf f => Sys2Proof.Machine.execMovwf f s
  | .nop => Sys2Proof.Machine.execNop s
  | .retfie => Sys2Proof.Machine.execRetfie s
  | .retlw k => Sys2Proof.Machine.execRetlw k s
  | .ret => Sys2Proof.Machine.execReturn s
  | .rlf d f => Sys2Proof.Machine.execRlf d f s
  | .rrf d f => Sys2Proof.Machine.execRrf d f s
  | .sleep => Sys2Proof.Machine.execSleep s
  | .sublw k => Sys2Proof.Machine.execSublw k s
  | .subwf d f => Sys2Proof.Machine.execSubwf d f s
  | .swapf d f => Sys2Proof.Machine.execSwapf d f s
  | .xorlw k => Sys2Proof.Machine.execXorlw k s
  | .xorwf d f => Sys2Proof.Machine.execXorwf d f s

end Sys2Proof.Machine
end

