-- ==== Sys2Proof/Machine/Timer.lean ====
section
/-! DEFINITION. Timer0 (rules R220 to R223, spec/60_exceptions.md) and the instruction cycles of a
step (R232). -/

namespace Sys2Proof.Machine

/-- `Inc()` of rule R221: TMR0 counts up, and its overflow sets T0IF (R223). -/
def State.timerInc (s : State) : State :=
  let v := s.tmr0 + 1
  { s with tmr0 := v, intcon := if v = 0 then setBit 2 true s.intcon else s.intcon }

/-- The prescaler counts up (R221). -/
def State.prescale (s : State) : State := { s with prescaler := s.prescaler + 1 }

/-- `Tick()` of rule R221 with no inhibit: straight to TMR0 when the watchdog owns the prescaler, else
through the prescaler, whose new count must be a multiple of the TMR0 rate. -/
def State.timerTick (s : State) : State :=
  if s.psa then s.timerInc
  else if (s.prescaler + 1).toNat % s.t0Rate = 0 then s.prescale.timerInc
  else s.prescale

/-- One tick of the selected source (R221): dropped while Timer0 is inhibited (R222). -/
def State.tick (s : State) : State := if s.t0Inhibit.val = 0 then s.timerTick else s

/-- One instruction cycle of a step (R232): it uses up one inhibited cycle, or else ticks Timer0 if
the instruction clock is its source. -/
def State.oneCycle (s : State) : State :=
  match s.t0Inhibit with
  | 0 => if s.t0cs then s else s.tick
  | 1 => { s with t0Inhibit := 0 }
  | 2 => { s with t0Inhibit := 1 }

/-- The tick loop of rule R232, once per instruction cycle of the step. -/
def State.cycles : Nat → State → State
  | 0, s => s
  | n + 1, s => State.cycles n s.oneCycle

/-- The tick loop for the cycles the step cost. -/
def State.runCycles (s : State) : State := State.cycles s.cyc s

end Sys2Proof.Machine
end

