-- ==== Sys2Proof/Machine/Environment.lean ====
section
/-! DEFINITION. What happens at a boundary before an instruction (rules R210 to R214, R224 to R232,
spec/60_exceptions.md; R250 to R253, spec/70_reset_and_hazards.md): the environment acts, then a
reset, a wake-up or an interrupt is found, in that order (R214). -/

namespace Sys2Proof.Machine

/-- The kinds of reset (R250). -/
inductive ResetKind where
  | powerOn
  | mclr
  | watchdog
  deriving DecidableEq, Repr

/-- The state after the environment has acted, the reset it requested, and whether the watchdog timed
out while the core was asleep. -/
structure EnvOutcome where
  state : State
  reset : Option ResetKind
  wdtWake : Bool
  deriving DecidableEq, Repr

/-- A reset is requested; of several requests at one boundary the first stands (assumption 9). -/
def EnvOutcome.request (o : EnvOutcome) (k : ResetKind) : EnvOutcome :=
  { o with reset := o.reset.or (some k) }

/-- The outside levels on PORTB's pins change; the selected edge on RB0/INT sets INTF (R227). -/
def State.setPinsB (s : State) (v : Byte) : State :=
  let edge := if s.intedg then !s.pinB.getLsbD 0 && v.getLsbD 0 else s.pinB.getLsbD 0 && !v.getLsbD 0
  { s with pinB := v, intcon := if edge then setBit 1 true s.intcon else s.intcon }

/-- One action of the environment (R231). An edge on T0CKI ticks Timer0 only when it is the edge T0SE
selects, T0CKI is the selected source and the core is awake (R221); a watchdog time-out counts only if
the watchdog runs, and resets an awake core or wakes a sleeping one (R224). -/
def EnvOutcome.event (o : EnvOutcome) : EnvEvent → EnvOutcome
  | .pinsA v => { o with state := { o.state with pinA := v } }
  | .pinsB v => { o with state := o.state.setPinsB v }
  | .mclr high =>
    let p := { o with state := { o.state with pinMclr := high } }
    if high then p else p.request .mclr
  | .t0Edge rising =>
    if o.state.t0cs && !o.state.asleep && rising != o.state.t0se then { o with state := o.state.tick } else o
  | .wdtTimeout =>
    if !o.state.cfg.wdtEnabled then o
    else if o.state.asleep then { o with wdtWake := true }
    else o.request .watchdog
  | .powerOn => o.request .powerOn

/-- RB port change at a boundary (R225): RBIF is set while an input pin of RB7:RB4 differs from the
level at the last read of PORTB. -/
def State.portChange (s : State) : State :=
  if (s.pinB.extractLsb' 4 4 ^^^ s.rbLast) &&& s.trisB.extractLsb' 4 4 = 0 then s
  else { s with intcon := setBit 0 true s.intcon }.markWritten [.rbif]

/-- A low level on MCLR requests a reset at every boundary (R231, R251). -/
def EnvOutcome.heldInReset (o : EnvOutcome) : EnvOutcome :=
  if o.state.pinMclr then o else o.request .mclr

/-- The events of this boundary, in the order of the list (R231; assumption 3). -/
def boundaryEvents (s : State) : EnvOutcome :=
  (s.env.headD []).foldl EnvOutcome.event ⟨{ s with env := s.env.tail }, none, false⟩

/-- `Environment()` of rule R232: the events of this boundary, then the levels of MCLR and RB7:RB4. -/
def environment (s : State) : EnvOutcome :=
  let o := (boundaryEvents s).heldInReset
  { o with state := o.state.portChange }

/-- What every reset does (R251, R252). The pointer of `STACK_POLICY = circular` becomes 0, by decision
D8 (DEDUCED, unsafe: assumption 10). `rb_last`, unspecified at reset (R225, U17), takes a free value
(DESIGN CHOICE, safe: assumption 30). -/
def State.commonReset (s : State) : State :=
  { s with
    pc := Config.resetVector, asleep := false, t0Inhibit := 0, sp := 0, stackPtr := 0, pclath := 0,
    optionReg := 0xFF, trisA := 0x1F, trisB := 0xFF, intcon := s.intcon &&& 0x01,
    eecon1 := s.eecon1 &&& 0b01000, wdt := 0, prescaler := 0, cyc := 0,
    rbLast := Config.resetRbLast s.resets, resets := s.resets + 1 }

/-- The GPRs after a power-on: each holds an unknown value (R51, R58). -/
def powerOnRam (n : Nat) : Memory :=
  Config.gprAddrs.foldl (fun m a => m.write a.toNat (Config.powerOnValue n (.gpr a))) []

/-- A power-on reset during a run (R58, R252): what the common part leaves unknown takes the free
values of Config, and every location is unwritten again (R59). -/
def State.powerOnReset (s : State) : State :=
  let n := s.resets
  let v := Config.powerOnValue n
  { s.commonReset with
    w := v .w, fsr := v .fsr, tmr0 := v .tmr0,
    latA := (v .latA).extractLsb' 0 5, latB := v .latB, eedata := v .eedata, eeadr := v .eeadr,
    status := setBit 2 ((v .z).getLsbD 0) (setBit 1 ((v .dc).getLsbD 0)
      (setBit 0 ((v .c).getLsbD 0) 0x18)),
    intcon := setBit 0 ((v .rbif).getLsbD 0) 0x00,
    eecon1 := setBit 3 ((v .wrerr).getLsbD 0) 0,
    ram := powerOnRam n,
    stack := Vector.ofFn (fun i => Config.powerOnStack n i.val),
    unwritten := Config.unknownLocs }

/-- STATUS after a reset on MCLR (R252, R253): awake `000u uuuu`, asleep `0001 0uuu`. -/
def statusAfterMclr (asleep : Bool) (status : Byte) : Byte :=
  let low := status &&& 0x1F
  if asleep then withToPd true false low else low

/-- `Reset(kind)` (R251 to R253). -/
def State.resetBy (s : State) : ResetKind → State
  | .powerOn => s.powerOnReset
  | .mclr => { s.commonReset with status := statusAfterMclr s.asleep s.status }
  | .watchdog => { s.commonReset with status := withToPd false true (s.status &&& 0x1F) }

/-- The wake-up (R230, R252): the core is awake again; a watchdog time-out also clears `/TO`, the
watchdog and the prescaler. -/
def State.wakeUp (s : State) (byWatchdog : Bool) : State :=
  if byWatchdog then
    { s with asleep := false, status := setBit 4 false s.status, wdt := 0, prescaler := 0 }
  else { s with asleep := false }

/-- How a step goes on after the environment has acted (R232). -/
inductive Boundary where
  /-- The step ends here: a reset, or the core sleeps on. -/
  | settled (s : State)
  /-- An interrupt is taken. -/
  | enter (s : State)
  /-- The instruction at `pc` is executed. -/
  | run (s : State)
  deriving DecidableEq, Repr

/-- The decisions of rule R232 after the environment has acted: reset, then wake-up, then interrupt
(R214). After a wake-up the instruction at `pc` runs and no interrupt is taken in this step (R230). -/
def boundaryOf (o : EnvOutcome) : Boundary :=
  match o.reset with
  | some k => .settled (o.state.resetBy k)
  | none =>
    if o.state.asleep then
      if o.wdtWake || o.state.wakePending then .run (o.state.wakeUp o.wdtWake)
      else .settled { o.state with cyc := 0 }
    else if o.state.gie && o.state.pending then .enter o.state
    else .run o.state

/-- The boundary a step begins with (R232). -/
def boundary (s : State) : Boundary := boundaryOf (environment s)

end Sys2Proof.Machine
end

