-- ==== Sys2Proof/Decode.lean ====
section
/-! DEFINITION. Decoding and encoding (spec/30_encoding.md). The decoder is the match and mask table
of rule R114 searched as rule R116 says; a word no row matches is `illegal` by name (R115). The
encoder writes each row's bit pattern (R101 to R107, R119), every `x` bit 0. `decodeByMap` is the
opcode map of rules R109 to R113, a second reading of the same encodings. -/

namespace Sys2Proof

/-- Why a word is no instruction: it is one of the 376 unassigned words (R115). -/
inductive DecodeError where
  | illegal (w : InstrWord)
  deriving DecidableEq, Repr

/-- The field `f`, bits 6:0 (R108). -/
def fieldF (w : InstrWord) : FileField := w.extractLsb' 0 7

/-- The field `d`, bit 7 (R108): 0 selects `W`, 1 the file register (R120). -/
def fieldD (w : InstrWord) : Dest := if w.getLsbD 7 then .f else .w

/-- The field `b`, bits 9:7 (R108). -/
def fieldB (w : InstrWord) : BitField := w.extractLsb' 7 3

/-- The 8-bit literal `k`, bits 7:0 (R108). -/
def fieldK8 (w : InstrWord) : Byte := w.extractLsb' 0 8

/-- The 11-bit literal `k`, bits 10:0 (R108). -/
def fieldK11 (w : InstrWord) : BitVec 11 := w.extractLsb' 0 11

/-- One row of rule R114: a word is the instruction iff `w AND mask = pattern`; `build` extracts the
fields of its format (R108). -/
structure OpRow where
  mnemonic : String
  pattern : InstrWord
  mask : InstrWord
  build : InstrWord → Instr

/-- The first half of the table of rule R114. -/
def opRowsA : List OpRow :=
  [ ⟨"ADDLW", 0x3E00, 0x3E00, fun w => .addlw (fieldK8 w)⟩
  , ⟨"ADDWF", 0x0700, 0x3F00, fun w => .addwf (fieldD w) (fieldF w)⟩
  , ⟨"ANDLW", 0x3900, 0x3F00, fun w => .andlw (fieldK8 w)⟩
  , ⟨"ANDWF", 0x0500, 0x3F00, fun w => .andwf (fieldD w) (fieldF w)⟩
  , ⟨"BCF", 0x1000, 0x3C00, fun w => .bcf (fieldB w) (fieldF w)⟩
  , ⟨"BSF", 0x1400, 0x3C00, fun w => .bsf (fieldB w) (fieldF w)⟩
  , ⟨"BTFSC", 0x1800, 0x3C00, fun w => .btfsc (fieldB w) (fieldF w)⟩
  , ⟨"BTFSS", 0x1C00, 0x3C00, fun w => .btfss (fieldB w) (fieldF w)⟩
  , ⟨"CALL", 0x2000, 0x3800, fun w => .call (fieldK11 w)⟩
  , ⟨"CLRF", 0x0180, 0x3F80, fun w => .clrf (fieldF w)⟩
  , ⟨"CLRW", 0x0100, 0x3F80, fun _ => .clrw⟩
  , ⟨"CLRWDT", 0x0064, 0x3FFF, fun _ => .clrwdt⟩
  , ⟨"COMF", 0x0900, 0x3F00, fun w => .comf (fieldD w) (fieldF w)⟩
  , ⟨"DECF", 0x0300, 0x3F00, fun w => .decf (fieldD w) (fieldF w)⟩
  , ⟨"DECFSZ", 0x0B00, 0x3F00, fun w => .decfsz (fieldD w) (fieldF w)⟩
  , ⟨"GOTO", 0x2800, 0x3800, fun w => .goto (fieldK11 w)⟩
  , ⟨"INCF", 0x0A00, 0x3F00, fun w => .incf (fieldD w) (fieldF w)⟩
  , ⟨"INCFSZ", 0x0F00, 0x3F00, fun w => .incfsz (fieldD w) (fieldF w)⟩ ]

/-- The second half of the table of rule R114. -/
def opRowsB : List OpRow :=
  [ ⟨"IORLW", 0x3800, 0x3F00, fun w => .iorlw (fieldK8 w)⟩
  , ⟨"IORWF", 0x0400, 0x3F00, fun w => .iorwf (fieldD w) (fieldF w)⟩
  , ⟨"MOVLW", 0x3000, 0x3C00, fun w => .movlw (fieldK8 w)⟩
  , ⟨"MOVF", 0x0800, 0x3F00, fun w => .movf (fieldD w) (fieldF w)⟩
  , ⟨"MOVWF", 0x0080, 0x3F80, fun w => .movwf (fieldF w)⟩
  , ⟨"NOP", 0x0000, 0x3F9F, fun _ => .nop⟩
  , ⟨"RETFIE", 0x0009, 0x3FFF, fun _ => .retfie⟩
  , ⟨"RETLW", 0x3400, 0x3C00, fun w => .retlw (fieldK8 w)⟩
  , ⟨"RETURN", 0x0008, 0x3FFF, fun _ => .ret⟩
  , ⟨"RLF", 0x0D00, 0x3F00, fun w => .rlf (fieldD w) (fieldF w)⟩
  , ⟨"RRF", 0x0C00, 0x3F00, fun w => .rrf (fieldD w) (fieldF w)⟩
  , ⟨"SLEEP", 0x0063, 0x3FFF, fun _ => .sleep⟩
  , ⟨"SUBLW", 0x3C00, 0x3E00, fun w => .sublw (fieldK8 w)⟩
  , ⟨"SUBWF", 0x0200, 0x3F00, fun w => .subwf (fieldD w) (fieldF w)⟩
  , ⟨"SWAPF", 0x0E00, 0x3F00, fun w => .swapf (fieldD w) (fieldF w)⟩
  , ⟨"XORLW", 0x3A00, 0x3F00, fun w => .xorlw (fieldK8 w)⟩
  , ⟨"XORWF", 0x0600, 0x3F00, fun w => .xorwf (fieldD w) (fieldF w)⟩ ]

/-- The match and mask table of all 35 instructions (R114). -/
def opRows : List OpRow := opRowsA ++ opRowsB

/-- Whether a word is the row's instruction (R114). -/
def OpRow.matches (r : OpRow) (w : InstrWord) : Bool := w &&& r.mask == r.pattern

/-- Decoding, total on all 16384 words (R116). -/
def decode (w : InstrWord) : Except DecodeError Instr :=
  match opRows.find? (fun r => r.matches w) with
  | some r => .ok (r.build w)
  | none => .error (.illegal w)

/-- Group `00`, bits 11:8 (R110), with the sub-group of bits 11:8 = 0000 and bit 7 = 0 (R111). -/
def decodeGroup00 (w : InstrWord) : Option Instr :=
  match (w.extractLsb' 8 4).toNat with
  | 0 =>
    if w.getLsbD 7 then some (.movwf (fieldF w))
    else match (fieldF w).toNat with
      | 0x00 => some .nop
      | 0x20 => some .nop
      | 0x40 => some .nop
      | 0x60 => some .nop
      | 0x08 => some .ret
      | 0x09 => some .retfie
      | 0x63 => some .sleep
      | 0x64 => some .clrwdt
      | _ => none
  | 1 => if w.getLsbD 7 then some (.clrf (fieldF w)) else some .clrw
  | 2 => some (.subwf (fieldD w) (fieldF w))
  | 3 => some (.decf (fieldD w) (fieldF w))
  | 4 => some (.iorwf (fieldD w) (fieldF w))
  | 5 => some (.andwf (fieldD w) (fieldF w))
  | 6 => some (.xorwf (fieldD w) (fieldF w))
  | 7 => some (.addwf (fieldD w) (fieldF w))
  | 8 => some (.movf (fieldD w) (fieldF w))
  | 9 => some (.comf (fieldD w) (fieldF w))
  | 10 => some (.incf (fieldD w) (fieldF w))
  | 11 => some (.decfsz (fieldD w) (fieldF w))
  | 12 => some (.rrf (fieldD w) (fieldF w))
  | 13 => some (.rlf (fieldD w) (fieldF w))
  | 14 => some (.swapf (fieldD w) (fieldF w))
  | _ => some (.incfsz (fieldD w) (fieldF w))

/-- Group `01`, bits 11:10 (R112). -/
def decodeGroup01 (w : InstrWord) : Option Instr :=
  match (w.extractLsb' 10 2).toNat with
  | 0 => some (.bcf (fieldB w) (fieldF w))
  | 1 => some (.bsf (fieldB w) (fieldF w))
  | 2 => some (.btfsc (fieldB w) (fieldF w))
  | _ => some (.btfss (fieldB w) (fieldF w))

/-- Group `10`, bit 11 (R112). -/
def decodeGroup10 (w : InstrWord) : Option Instr :=
  if w.getLsbD 11 then some (.goto (fieldK11 w)) else some (.call (fieldK11 w))

/-- Group `11`, bits 11:8 (R113). -/
def decodeGroup11 (w : InstrWord) : Option Instr :=
  match (w.extractLsb' 8 4).toNat with
  | 8 => some (.iorlw (fieldK8 w))
  | 9 => some (.andlw (fieldK8 w))
  | 10 => some (.xorlw (fieldK8 w))
  | 11 => none
  | 12 => some (.sublw (fieldK8 w))
  | 13 => some (.sublw (fieldK8 w))
  | 14 => some (.addlw (fieldK8 w))
  | 15 => some (.addlw (fieldK8 w))
  | n => if n < 4 then some (.movlw (fieldK8 w)) else some (.retlw (fieldK8 w))

/-- The opcode map: bits 13:12 select the group (R109). -/
def decodeByMap (w : InstrWord) : Option Instr :=
  match (w.extractLsb' 12 2).toNat with
  | 0 => decodeGroup00 w
  | 1 => decodeGroup01 w
  | 2 => decodeGroup10 w
  | _ => decodeGroup11 w

/-- The destination bit as it stands in bit 7 of a word (R108, R120). -/
def Dest.bit : Dest → BitVec 1
  | .w => 0#1
  | .f => 1#1

/-- The canonical word of an instruction (R119): the opcode bits of its line, the fields of R108,
0 in every `x` position. -/
def encode : Instr → InstrWord
  | .addlw k => 0b111110#6 ++ k
  | .addwf d f => 0b000111#6 ++ d.bit ++ f
  | .andlw k => 0b111001#6 ++ k
  | .andwf d f => 0b000101#6 ++ d.bit ++ f
  | .bcf b f => 0b0100#4 ++ b ++ f
  | .bsf b f => 0b0101#4 ++ b ++ f
  | .btfsc b f => 0b0110#4 ++ b ++ f
  | .btfss b f => 0b0111#4 ++ b ++ f
  | .call k => 0b100#3 ++ k
  | .clrf f => 0b0000011#7 ++ f
  | .clrw => 0b00000100000000#14
  | .clrwdt => 0b00000001100100#14
  | .comf d f => 0b001001#6 ++ d.bit ++ f
  | .decf d f => 0b000011#6 ++ d.bit ++ f
  | .decfsz d f => 0b001011#6 ++ d.bit ++ f
  | .goto k => 0b101#3 ++ k
  | .incf d f => 0b001010#6 ++ d.bit ++ f
  | .incfsz d f => 0b001111#6 ++ d.bit ++ f
  | .iorlw k => 0b111000#6 ++ k
  | .iorwf d f => 0b000100#6 ++ d.bit ++ f
  | .movlw k => 0b110000#6 ++ k
  | .movf d f => 0b001000#6 ++ d.bit ++ f
  | .movwf f => 0b0000001#7 ++ f
  | .nop => 0b00000000000000#14
  | .retfie => 0b00000000001001#14
  | .retlw k => 0b110100#6 ++ k
  | .ret => 0b00000000001000#14
  | .rlf d f => 0b001101#6 ++ d.bit ++ f
  | .rrf d f => 0b001100#6 ++ d.bit ++ f
  | .sleep => 0b00000001100011#14
  | .sublw k => 0b111100#6 ++ k
  | .subwf d f => 0b000010#6 ++ d.bit ++ f
  | .swapf d f => 0b001110#6 ++ d.bit ++ f
  | .xorlw k => 0b111010#6 ++ k
  | .xorwf d f => 0b000110#6 ++ d.bit ++ f

/-- The instruction the decoder reads from a table word (host interface). The table's word is one
14-bit word of program memory (R71), stored whole at one address (R85); bits above bit 13 make it no
instruction word (R116). `nbits` says how many bits are given; the bits above are 0. -/
def decodeTableWord (nbits w : Nat) : Option Instr :=
  let v := w % 2 ^ nbits
  if v < 2 ^ 14 then (decode (BitVec.ofNat 14 v)).toOption else none

end Sys2Proof
end

