-- ==== Sys2Proof/Machine/Fetch.lean ====
section
/-! DEFINITION. Fetching and decoding the instruction at `pc` (rules R72, R115, R116). -/

namespace Sys2Proof.Machine

/-- The physical address of a program word: `a mod PROG_WORDS` (R72). -/
def State.physAddr (s : State) (a : ProgAddr) : Nat := a.toNat % s.cfg.progWords

/-- `ProgRead(a)` (R72). -/
def State.progRead (s : State) (a : ProgAddr) : Except Fault InstrWord :=
  match s.prog.read (s.physAddr a) with
  | some w => .ok w
  | none => .error (.fetchOutsideProgram a)

/-- The instruction at `pc`; a word the image does not define and an unassigned word are faults
(R72, R115, R202). -/
def State.fetch (s : State) : Except Fault Instr :=
  match s.progRead s.pc with
  | .error e => .error e
  | .ok w =>
    match decode w with
    | .ok i => .ok i
    | .error _ => .error (.illegalInstruction s.pc w)

/-- The program image with a word placed where `pc` fetches. -/
def State.loadAtPc (s : State) (w : InstrWord) : ProgMem := s.prog.write (s.physAddr s.pc) w

end Sys2Proof.Machine
end

