-- ==== Sys2Proof/Machine/Step.lean ====
section
/-! DEFINITION. One step of the machine (rule R232, spec/60_exceptions.md). -/

namespace Sys2Proof.Machine

/-- `Step()` of rule R232: the environment acts; then a reset, a sleeping cycle, an interrupt entry or
one instruction; then Timer0 sees the cycles the step cost. -/
def step (s : State) : Host.Outcome State Fault Refusal :=
  match boundary s with
  | .settled t => .next t
  | .enter t =>
    match t.interruptEntry with
    | .error e => .fault e
    | .ok u => .next u.runCycles
  | .run t =>
    match t.fetch with
    | .error e => .fault e
    | .ok i => onNext State.runCycles (exec i t)

/-- The state with a table word stored where the next step fetches, at `pc mod PROG_WORDS` of the
program image (host interface). Nothing else changes. -/
def State.withFetchWord (s : State) (nbits w : Nat) : State :=
  { s with prog := s.loadAtPc (BitVec.ofNat 14 (w % 2 ^ nbits)) }

end Sys2Proof.Machine
end

