-- ==== Sys2Proof/WellFormed.lean ====
section
/-! DEFINITION. Well-formedness of a source line (rules R108 and R117, spec/30_encoding.md): a
mnemonic with its operand numbers, checked against the operand form and the ranges the cards give
(`0 <= f <= 127`, `d` in 0 and 1, `0 <= b <= 7`, `0 <= k <= 255` or `0 <= k <= 2047`). A line that
passes names exactly one `Instr`; every `Instr` is well formed by its types. -/

namespace Sys2Proof

/-- The 35 mnemonics of rule R2. -/
inductive Mnemonic where
  | ADDLW | ADDWF | ANDLW | ANDWF | BCF | BSF | BTFSC | BTFSS | CALL | CLRF | CLRW | CLRWDT
  | COMF | DECF | DECFSZ | GOTO | INCF | INCFSZ | IORLW | IORWF | MOVLW | MOVF | MOVWF | NOP
  | RETFIE | RETLW | RETURN | RLF | RRF | SLEEP | SUBLW | SUBWF | SWAPF | XORLW | XORWF
  deriving DecidableEq, Repr

/-- A line `MNEMONIC operands` of R117, its operands as the numbers written. -/
structure SourceLine where
  mnemonic : Mnemonic
  operands : List Nat
  deriving DecidableEq, Repr

/-- Form `MNEMONIC f,d`: `0 <= f <= 127` and `d` in 0 and 1 (R117). -/
def checkFD (mk : Dest → FileField → Instr) : List Nat → Option Instr
  | [f, d] =>
    if f ≤ 127 then
      if d = 0 then some (mk .w (BitVec.ofNat 7 f))
      else if d = 1 then some (mk .f (BitVec.ofNat 7 f)) else none
    else none
  | _ => none

/-- Form `MNEMONIC f`: `0 <= f <= 127` (R117); MOVWF and CLRF take no `d` (C16). -/
def checkF (mk : FileField → Instr) : List Nat → Option Instr
  | [f] => if f ≤ 127 then some (mk (BitVec.ofNat 7 f)) else none
  | _ => none

/-- Form `MNEMONIC f,b`: `0 <= f <= 127` and `0 <= b <= 7` (R117, C4). -/
def checkFB (mk : BitField → FileField → Instr) : List Nat → Option Instr
  | [f, b] => if f ≤ 127 ∧ b ≤ 7 then some (mk (BitVec.ofNat 3 b) (BitVec.ofNat 7 f)) else none
  | _ => none

/-- Form `MNEMONIC k` with an 8-bit literal, `0 <= k <= 255` (R117). -/
def checkK8 (mk : Byte → Instr) : List Nat → Option Instr
  | [k] => if k ≤ 255 then some (mk (BitVec.ofNat 8 k)) else none
  | _ => none

/-- Form `MNEMONIC k` with an 11-bit literal, `0 <= k <= 2047` (R117). -/
def checkK11 (mk : BitVec 11 → Instr) : List Nat → Option Instr
  | [k] => if k ≤ 2047 then some (mk (BitVec.ofNat 11 k)) else none
  | _ => none

/-- Form `MNEMONIC` without operands (R117). -/
def checkNone (i : Instr) : List Nat → Option Instr
  | [] => some i
  | _ => none

/-- The instruction a source line names, if its operands have the form and ranges of R117. -/
def SourceLine.check (l : SourceLine) : Option Instr :=
  match l.mnemonic with
  | .ADDLW => checkK8 .addlw l.operands
  | .ADDWF => checkFD .addwf l.operands
  | .ANDLW => checkK8 .andlw l.operands
  | .ANDWF => checkFD .andwf l.operands
  | .BCF => checkFB .bcf l.operands
  | .BSF => checkFB .bsf l.operands
  | .BTFSC => checkFB .btfsc l.operands
  | .BTFSS => checkFB .btfss l.operands
  | .CALL => checkK11 .call l.operands
  | .CLRF => checkF .clrf l.operands
  | .CLRW => checkNone .clrw l.operands
  | .CLRWDT => checkNone .clrwdt l.operands
  | .COMF => checkFD .comf l.operands
  | .DECF => checkFD .decf l.operands
  | .DECFSZ => checkFD .decfsz l.operands
  | .GOTO => checkK11 .goto l.operands
  | .INCF => checkFD .incf l.operands
  | .INCFSZ => checkFD .incfsz l.operands
  | .IORLW => checkK8 .iorlw l.operands
  | .IORWF => checkFD .iorwf l.operands
  | .MOVLW => checkK8 .movlw l.operands
  | .MOVF => checkFD .movf l.operands
  | .MOVWF => checkF .movwf l.operands
  | .NOP => checkNone .nop l.operands
  | .RETFIE => checkNone .retfie l.operands
  | .RETLW => checkK8 .retlw l.operands
  | .RETURN => checkNone .ret l.operands
  | .RLF => checkFD .rlf l.operands
  | .RRF => checkFD .rrf l.operands
  | .SLEEP => checkNone .sleep l.operands
  | .SUBLW => checkK8 .sublw l.operands
  | .SUBWF => checkFD .subwf l.operands
  | .SWAPF => checkFD .swapf l.operands
  | .XORLW => checkK8 .xorlw l.operands
  | .XORWF => checkFD .xorwf l.operands

/-- A source line is well formed when it passes the check (R117). -/
def SourceLine.wellFormed (l : SourceLine) : Bool := l.check.isSome

end Sys2Proof
end

