-- ==== Sys2Proof/Safety.lean ====
section
/-! DEFINITION. The terms in which claims about runs are made: the invariant of the machine, what a
quiet and an ended run are (rules R256, R257), which state an instruction writes by the flag and
register tables of the spec (R21, R39, R60), and the schemas the statements about instructions share:
syntax, encoding, and the effect of each instruction shape on every operand form. -/

namespace Sys2Proof.Machine

open Sys2Proof.Config (UnknownLoc)

/-! ### The invariant -/

/-- What holds at reset and is kept by every step: the program image and the two byte memories keep
their canonical form within their addresses; a sleeping core shows `/TO` = 1 and `/PD` = 0 (R183,
R230); EECON1 holds nothing but WRERR, since no write reaches it and EEIF is never set (R228). -/
structure State.Inv (s : State) : Prop where
  prog : ProgMem.wf s.cfg.progWords s.prog
  ram : Memory.wf 0x0C 0x50 s.ram
  eeprom : Memory.wf 0 s.cfg.eepromBytes s.eeprom
  sleeping : s.asleep = true → s.flagTO = true ∧ s.flagPD = false
  eecon1 : s.eecon1 &&& 0b10111 = 0

/-! ### Runs -/

/-- Some interrupt can be taken: GIE and an enable bit are 1 (R257). -/
def State.canInterrupt (s : State) : Bool := s.gie && (s.intcon &&& 0x78 != 0)

/-- Case (a) of rule R257: the word at `pc` is a GOTO to itself and no interrupt can be taken. -/
def State.endedInLoop (s : State) : Bool :=
  match s.fetch with
  | .ok (.goto k) => s.target k == s.pc && !s.canInterrupt
  | _ => false

/-- Case (b) of rule R257: asleep with no wake-up source: the watchdog off, and INTE, RBIE and EEIE
all 0. -/
def State.endedAsleep (s : State) : Bool :=
  s.asleep && !s.cfg.wdtEnabled && (s.intcon &&& 0x58 == 0)

/-- A run has ended at this boundary (R257). The chip does not stop there. -/
def State.runEnded (s : State) : Bool := s.endedInLoop || s.endedAsleep

/-- The alternative end of rule R257: the first boundary at a named address `END_ADDR`. -/
def State.atEndAddr (s : State) (endAddr : ProgAddr) : Bool := s.pc == endAddr

/-- The environment does nothing at any boundary to come (R256). -/
def State.quiet (s : State) : Bool :=
  s.env.isEmpty && s.pinMclr
    && ((s.pinB.extractLsb' 4 4 ^^^ s.rbLast) &&& s.trisB.extractLsb' 4 4 == 0)

/-- A step from `s` goes on: it meets no fault of rule R201. -/
def State.stepGoesOn (s : State) : Prop := ∃ t, step s = .next t

/-- A run of `n` steps from `s` meets no fault of rule R201. -/
def State.runGoesOn (n : Nat) (s : State) : Prop := ∃ t, core.run n s = .next t

/-! ### Which state an instruction writes -/

/-- Every location of `ls` is known: written since power-on, or not watched because
`UNINIT_POLICY = draw` (R59). -/
abbrev State.Known (s : State) (ls : List UnknownLoc) : Prop :=
  s.cfg.uninitPolicy = .fault → ∀ l ∈ ls, l ∉ s.unwritten

/-- The state without the marks of rule R59, under `UNINIT_POLICY = draw`. -/
def State.withoutMarks (s : State) : State :=
  { s with cfg := { s.cfg with uninitPolicy := .draw }, unwritten := [] }

/-- The file register an instruction writes through its `f` field (R60): by the address `ea(f)`
gives before the instruction. -/
def destReg (i : Instr) (s : State) : Option Reg :=
  match i with
  | .addwf .f f => some (s.operand f)
  | .andwf .f f => some (s.operand f)
  | .bcf _ f => some (s.operand f)
  | .bsf _ f => some (s.operand f)
  | .clrf f => some (s.operand f)
  | .comf .f f => some (s.operand f)
  | .decf .f f => some (s.operand f)
  | .decfsz .f f => some (s.operand f)
  | .incf .f f => some (s.operand f)
  | .incfsz .f f => some (s.operand f)
  | .iorwf .f f => some (s.operand f)
  | .movf .f f => some (s.operand f)
  | .movwf f => some (s.operand f)
  | .rlf .f f => some (s.operand f)
  | .rrf .f f => some (s.operand f)
  | .subwf .f f => some (s.operand f)
  | .swapf .f f => some (s.operand f)
  | .xorwf .f f => some (s.operand f)
  | _ => none

/-- The file register an instruction reads through its `f` field (R60): every instruction with one but
CLRF and MOVWF. -/
def readReg (i : Instr) (s : State) : Option Reg :=
  match i with
  | .addwf _ f => some (s.operand f)
  | .andwf _ f => some (s.operand f)
  | .bcf _ f => some (s.operand f)
  | .bsf _ f => some (s.operand f)
  | .btfsc _ f => some (s.operand f)
  | .btfss _ f => some (s.operand f)
  | .comf _ f => some (s.operand f)
  | .decf _ f => some (s.operand f)
  | .decfsz _ f => some (s.operand f)
  | .incf _ f => some (s.operand f)
  | .incfsz _ f => some (s.operand f)
  | .iorwf _ f => some (s.operand f)
  | .movf _ f => some (s.operand f)
  | .rlf _ f => some (s.operand f)
  | .rrf _ f => some (s.operand f)
  | .subwf _ f => some (s.operand f)
  | .swapf _ f => some (s.operand f)
  | .xorwf _ f => some (s.operand f)
  | _ => none

/-- The instructions that write `W` (R21). -/
def writesW : Instr → Bool
  | .addlw _ => true
  | .andlw _ => true
  | .iorlw _ => true
  | .xorlw _ => true
  | .sublw _ => true
  | .movlw _ => true
  | .retlw _ => true
  | .clrw => true
  | .addwf .w _ => true
  | .andwf .w _ => true
  | .comf .w _ => true
  | .decf .w _ => true
  | .decfsz .w _ => true
  | .incf .w _ => true
  | .incfsz .w _ => true
  | .iorwf .w _ => true
  | .movf .w _ => true
  | .rlf .w _ => true
  | .rrf .w _ => true
  | .subwf .w _ => true
  | .swapf .w _ => true
  | .xorwf .w _ => true
  | _ => false

/-- The unknown locations the effect of an instruction depends on (R59), with the state in which it
executes. -/
def needsOf (i : Instr) (s : State) : List UnknownLoc :=
  let byF (f : FileField) : List UnknownLoc := pointerNeeds f ++ s.readNeeds (s.operand f)
  match i with
  | .addlw _ => [.w]
  | .andlw _ => [.w]
  | .iorlw _ => [.w]
  | .sublw _ => [.w]
  | .xorlw _ => [.w]
  | .addwf _ f => byF f ++ [.w]
  | .andwf _ f => byF f ++ [.w]
  | .iorwf _ f => byF f ++ [.w]
  | .subwf _ f => byF f ++ [.w]
  | .xorwf _ f => byF f ++ [.w]
  | .rlf _ f => byF f ++ [.c]
  | .rrf _ f => byF f ++ [.c]
  | .comf _ f => byF f
  | .decf _ f => byF f
  | .decfsz _ f => byF f
  | .incf _ f => byF f
  | .incfsz _ f => byF f
  | .movf _ f => byF f
  | .swapf _ f => byF f
  | .clrf f => pointerNeeds f
  | .movwf f => pointerNeeds f ++ [.w]
  | .bcf _ f => pointerNeeds f ++ s.bitWriteNeeds (s.operand f)
  | .bsf _ f => pointerNeeds f ++ s.bitWriteNeeds (s.operand f)
  | .btfsc b f => pointerNeeds f ++ s.bitNeeds (s.operand f) b
  | .btfss b f => pointerNeeds f ++ s.bitNeeds (s.operand f) b
  | _ => []

/-- The flags written, by the table of rule R39: all of Z, DC and C; Z alone; C alone; none. -/
inductive FlagClass where
  | zdcc
  | z
  | c
  | none
  deriving DecidableEq, Repr

/-- The table of rule R39 for Z, DC and C. -/
def flagClass : Instr → FlagClass
  | .addlw _ => .zdcc
  | .addwf _ _ => .zdcc
  | .sublw _ => .zdcc
  | .subwf _ _ => .zdcc
  | .andlw _ => .z
  | .andwf _ _ => .z
  | .clrf _ => .z
  | .clrw => .z
  | .comf _ _ => .z
  | .decf _ _ => .z
  | .incf _ _ => .z
  | .iorlw _ => .z
  | .iorwf _ _ => .z
  | .movf _ _ => .z
  | .xorlw _ => .z
  | .xorwf _ _ => .z
  | .rlf _ _ => .c
  | .rrf _ _ => .c
  | _ => .none

/-- The instructions that use the return stack (R27). -/
def usesStack : Instr → Bool
  | .call _ => true
  | .ret => true
  | .retlw _ => true
  | .retfie => true
  | _ => false

/-- STATUS with Z, DC and C (bits 2, 1, 0) replaced where an update gives them, written as the
concatenation of its bits (R30). -/
def putFlags (u : FlagUpdate) (b : Byte) : Byte :=
  b.extractLsb' 3 5 ++ BitVec.ofBool (u.z.getD (b.getLsbD 2))
    ++ BitVec.ofBool (u.dc.getD (b.getLsbD 1)) ++ BitVec.ofBool (u.c.getD (b.getLsbD 0))

/-- Z alone, as the update of an 8-bit result (R35). -/
def zOf (v : Byte) : FlagUpdate := ⟨some (decide (v = 0)), none, none⟩

/-! ### Schemas -/

/-- The form `MNEMONIC f,d` with its ranges (R117). -/
def SyntaxFD (m : Mnemonic) (mk : Dest → FileField → Instr) : Prop :=
  ∀ f d : Nat, (SourceLine.mk m [f, d]).check =
    if f ≤ 127 ∧ d = 0 then some (mk .w (BitVec.ofNat 7 f))
    else if f ≤ 127 ∧ d = 1 then some (mk .f (BitVec.ofNat 7 f))
    else none

/-- The form `MNEMONIC f` with its range (R117). -/
def SyntaxF (m : Mnemonic) (mk : FileField → Instr) : Prop :=
  ∀ f : Nat, (SourceLine.mk m [f]).check = if f ≤ 127 then some (mk (BitVec.ofNat 7 f)) else none

/-- The form `MNEMONIC f,b` with its ranges (R117). -/
def SyntaxFB (m : Mnemonic) (mk : BitField → FileField → Instr) : Prop :=
  ∀ f b : Nat, (SourceLine.mk m [f, b]).check =
    if f ≤ 127 ∧ b ≤ 7 then some (mk (BitVec.ofNat 3 b) (BitVec.ofNat 7 f)) else none

/-- The form `MNEMONIC k` with an 8-bit literal (R117). -/
def SyntaxK8 (m : Mnemonic) (mk : Byte → Instr) : Prop :=
  ∀ k : Nat, (SourceLine.mk m [k]).check = if k ≤ 255 then some (mk (BitVec.ofNat 8 k)) else none

/-- The form `MNEMONIC k` with an 11-bit literal (R117). -/
def SyntaxK11 (m : Mnemonic) (mk : BitVec 11 → Instr) : Prop :=
  ∀ k : Nat, (SourceLine.mk m [k]).check = if k ≤ 2047 then some (mk (BitVec.ofNat 11 k)) else none

/-- The form `MNEMONIC` without operands (R117). -/
def SyntaxNone (m : Mnemonic) (i : Instr) : Prop :=
  ∀ l : List Nat, (SourceLine.mk m l).check = if l = [] then some i else none

/-- Every word with the match bits of a row is the row's instruction, whatever its other bits (R105,
R114). -/
def Coded (pattern mask : InstrWord) (mk : InstrWord → Instr) : Prop :=
  ∀ w : InstrWord, w &&& mask = pattern → decode w = .ok (mk w)

/-- The destination field of a word: bit 7 (R108). -/
def wordD (w : InstrWord) : Dest := if w.extractLsb' 7 1 = 1#1 then .f else .w

/-- The weight of the destination field in a word (R108). -/
def weightD : Dest → InstrWord
  | .w => 0x0000
  | .f => 0x0080

/-- Format B (R101), and the canonical word (R119). -/
def CodedB (pattern : InstrWord) (mk : Dest → FileField → Instr) : Prop :=
  (Coded pattern 0x3F00 fun w => mk (wordD w) (w.extractLsb' 0 7))
    ∧ ∀ d f, encode (mk d f) = pattern + weightD d + f.setWidth 14

/-- Format F (R102), and the canonical word (R119). -/
def CodedF (pattern : InstrWord) (mk : FileField → Instr) : Prop :=
  (Coded pattern 0x3F80 fun w => mk (w.extractLsb' 0 7))
    ∧ ∀ f, encode (mk f) = pattern + f.setWidth 14

/-- Format T (R103), and the canonical word (R119). -/
def CodedT (pattern : InstrWord) (mk : BitField → FileField → Instr) : Prop :=
  (Coded pattern 0x3C00 fun w => mk (w.extractLsb' 7 3) (w.extractLsb' 0 7))
    ∧ ∀ b f, encode (mk b f) = pattern + (b.setWidth 14 <<< 7) + f.setWidth 14

/-- Format L (R104), and the canonical word (R119). -/
def CodedL (pattern mask : InstrWord) (mk : Byte → Instr) : Prop :=
  (Coded pattern mask fun w => mk (w.extractLsb' 0 8))
    ∧ ∀ k, encode (mk k) = pattern + k.setWidth 14

/-- Format J (R106), and the canonical word (R119). -/
def CodedJ (pattern : InstrWord) (mk : BitVec 11 → Instr) : Prop :=
  (Coded pattern 0x3800 fun w => mk (w.extractLsb' 0 11))
    ∧ ∀ k, encode (mk k) = pattern + k.setWidth 14

/-- Format N (R107), and the canonical word (R119). -/
def CodedN (pattern mask : InstrWord) (i : Instr) : Prop :=
  (Coded pattern mask fun _ => i) ∧ encode i = pattern

/-- The `x` positions of an instruction's opcode, each as a 1 (R105). -/
def xBits : Instr → InstrWord
  | .addlw _ => 0x0100
  | .sublw _ => 0x0100
  | .movlw _ => 0x0300
  | .retlw _ => 0x0300
  | .clrw => 0x007F
  | .nop => 0x0060
  | _ => 0x0000

/-- The effect of a literal instruction (R160): `W` takes `val`, the flags take `fl`, the pc moves on
by one in one cycle, and nothing else changes. -/
def LiteralEffect (mk : Byte → Instr) (needs : List UnknownLoc) (val : Byte → Byte → Byte)
    (fl : Byte → Byte → FlagUpdate) : Prop :=
  ∀ (k : Byte) (s : State), s.Known needs →
    exec (mk k) s = .next { s with
      w := val s.w k, status := putFlags (fl s.w k) s.status, pc := s.pc + 1, cyc := 1,
      unwritten := s.marksAfter (.w :: (fl s.w k).locs) }

/-- The effect of a byte-oriented instruction with a destination bit (R120), for every register `f`
may name: `val` and `fl` are its result and flags from the value read. -/
def ByteEffect (mk : Dest → FileField → Instr) (needs : List UnknownLoc)
    (val : State → Byte → Byte) (fl : State → Byte → FlagUpdate) : Prop :=
  ∀ (f : FileField) (s : State),
    let t := s.advance
    let r := t.operand f
    let v := t.regValue r
    s.Known (pointerNeeds f ++ s.readNeeds r ++ needs) →
      exec (mk .w f) s = .next { t.afterRead r with
        w := val s v, status := putFlags (fl s v) s.status,
        unwritten := s.marksAfter (.w :: (fl s v).locs) }
      ∧ (r.isEecon = false →
          exec (mk .f f) s =
            let q := (t.afterRead r).storeReg (fl s v) (val s v) r
            .next { q with
              status := putFlags (fl s v) q.status,
              unwritten := s.marksAfter (writeMarks r (fl s v) ++ (fl s v).locs) })
      ∧ (r.isEecon = true → exec (mk .f f) s = .fault (.unmodelled .eeprom s.pc))

/-- The effect of DECFSZ and INCFSZ (R129, R131, R122, R83), for every register `f` may name. -/
def ByteSkipEffect (mk : Dest → FileField → Instr) (val : Byte → Byte) : Prop :=
  ∀ (f : FileField) (s : State),
    let t := s.advance
    let r := t.operand f
    let x := val (t.regValue r)
    s.Known (pointerNeeds f ++ s.readNeeds r) →
      exec (mk .w f) s = .next { t.afterRead r with
        w := x, unwritten := s.marksAfter [.w],
        pc := if x = 0 then s.pc + 2 else s.pc + 1, cyc := if x = 0 then 2 else 1 }
      ∧ (r.isEecon = false → r ≠ .pcl →
          exec (mk .f f) s = .next { (t.afterRead r).storeReg noFlags x r with
            unwritten := s.marksAfter (writeMarks r noFlags),
            pc := if x = 0 then s.pc + 2 else s.pc + 1, cyc := if x = 0 then 2 else 1 })
      ∧ (r.isEecon = true → exec (mk .f f) s = .fault (.unmodelled .eeprom s.pc))
      ∧ (r = .pcl → exec (mk .f f) s = .fault (.unmodelled .skipWithPclDestination s.pc))

/-- The effect of CLRF and MOVWF (R125, R134), for every register `f` may name: the register is
written and not read. -/
def ByteWriteEffect (mk : FileField → Instr) (needs : List UnknownLoc) (val : State → Byte)
    (fl : FlagUpdate) : Prop :=
  ∀ (f : FileField) (s : State),
    let r := s.operand f
    s.Known (pointerNeeds f ++ needs) →
      (r.isEecon = false →
          exec (mk f) s =
            let q := s.advance.storeReg fl (val s) r
            .next { q with
              status := putFlags fl q.status,
              unwritten := s.marksAfter (writeMarks r fl ++ fl.locs) })
      ∧ (r.isEecon = true → exec (mk f) s = .fault (.unmodelled .eeprom s.pc))

/-- The effect of BCF and BSF (R151, R152), for every register `f` may name: the whole register is
read, one bit changed, the whole register written back. -/
def BitWriteEffect (mk : BitField → FileField → Instr) (val : Byte → BitField → Byte) : Prop :=
  ∀ (b : BitField) (f : FileField) (s : State),
    let t := s.advance
    let r := t.operand f
    s.Known (pointerNeeds f ++ s.bitWriteNeeds r) →
      (r.isEecon = false →
          exec (mk b f) s =
            .next { (t.afterRead r).storeReg noFlags (val (t.regValue r) b) r with
              unwritten := s.marksAfter (bitWriteMarks r b) })
      ∧ (r.isEecon = true → exec (mk b f) s = .fault (.unmodelled .eeprom s.pc))

/-- The effect of BTFSC and BTFSS (R153, R154), for every register `f` may name: the next word is
skipped when bit `b` is `v`. -/
def BitTestEffect (mk : BitField → FileField → Instr) (v : Bool) : Prop :=
  ∀ (b : BitField) (f : FileField) (s : State),
    let t := s.advance
    let r := t.operand f
    let skips := (t.regValue r).getLsbD b.toNat = v
    s.Known (pointerNeeds f ++ s.bitNeeds r b) →
      exec (mk b f) s = .next { t.afterRead r with
        pc := if skips then s.pc + 2 else s.pc + 1, cyc := if skips then 2 else 1 }

/-- The effect of an instruction that pops its return address (R173 to R175), under both stack
policies (R28, R29): `eff` is what it does beside. -/
def ReturnEffect (i : Instr) (eff : State → State) : Prop :=
  ∀ s : State,
    (s.cfg.stackPolicy = .fault →
      (s.sp = 0 → exec i s = .fault (.stackUnderflow s.pc))
      ∧ ∀ (n : Nat) (a : ProgAddr), s.sp.val = n + 1 → s.stack[n]? = some a →
          exec i s = .next (eff { s with pc := a, sp := Fin.ofNat 9 n, cyc := 2 }))
    ∧ (s.cfg.stackPolicy = .circular →
        ∀ a : ProgAddr, s.stack[(s.stackPtr - 1).val]? = some a →
          exec i s = .next (eff { s with pc := a, stackPtr := s.stackPtr - 1, cyc := 2 }))

end Sys2Proof.Machine
end

