-- ==== Sys2Proof/Certificates/Slice0/Obligations.lean ====
section
/-! DEFINITION. The statements for the provers. A statement is about every state, reached or not; the
schemas it uses stand in Safety.lean. -/

open Sys2Proof Sys2Proof.Machine
open Sys2Proof.Config (UnknownLoc)

/-! ### Literal instructions -/

/-- ADDLW and SUBLW: syntax, encoding and whole effect (R161, R165). -/
def Obligations.AddAndSubtractLiteral : Prop :=
  (SyntaxK8 .ADDLW .addlw ∧ CodedL 0x3E00 0x3E00 .addlw
    ∧ LiteralEffect .addlw [.w]
        (fun w k => BitVec.ofNat 8 (w.toNat + k.toNat))
        (fun w k => {
          z := some (decide ((w.toNat + k.toNat) % 256 = 0)),
          dc := some (decide (16 ≤ w.toNat % 16 + k.toNat % 16)),
          c := some (decide (256 ≤ w.toNat + k.toNat)) }))
  ∧ (SyntaxK8 .SUBLW .sublw ∧ CodedL 0x3C00 0x3E00 .sublw
    ∧ LiteralEffect .sublw [.w]
        (fun w k => k - w)
        (fun w k => {
          z := some (decide (k = w)),
          dc := some (decide (w.toNat % 16 ≤ k.toNat % 16)),
          c := some (decide (w.toNat ≤ k.toNat)) }))

/-- ANDLW, IORLW and XORLW: syntax, encoding and whole effect (R162, R163, R166). -/
def Obligations.LogicLiteral : Prop :=
  (SyntaxK8 .ANDLW .andlw ∧ CodedL 0x3900 0x3F00 .andlw
    ∧ LiteralEffect .andlw [.w] (fun w k => w &&& k) (fun w k => zOf (w &&& k)))
  ∧ (SyntaxK8 .IORLW .iorlw ∧ CodedL 0x3800 0x3F00 .iorlw
    ∧ LiteralEffect .iorlw [.w] (fun w k => w ||| k) (fun w k => zOf (w ||| k)))
  ∧ (SyntaxK8 .XORLW .xorlw ∧ CodedL 0x3A00 0x3F00 .xorlw
    ∧ LiteralEffect .xorlw [.w] (fun w k => w ^^^ k) (fun w k => zOf (w ^^^ k)))

/-- MOVLW: syntax, encoding and whole effect (R164). -/
def Obligations.MoveLiteral : Prop :=
  SyntaxK8 .MOVLW .movlw ∧ CodedL 0x3000 0x3C00 .movlw
    ∧ LiteralEffect .movlw [] (fun _ k => k) (fun _ _ => noFlags)

/-! ### Byte-oriented instructions -/

/-- ADDWF and SUBWF: syntax, encoding and whole effect on every register (R123, R137). -/
def Obligations.AddAndSubtractFile : Prop :=
  (SyntaxFD .ADDWF .addwf ∧ CodedB 0x0700 .addwf
    ∧ ByteEffect .addwf [.w]
        (fun s v => BitVec.ofNat 8 (s.w.toNat + v.toNat))
        (fun s v => {
          z := some (decide ((s.w.toNat + v.toNat) % 256 = 0)),
          dc := some (decide (16 ≤ s.w.toNat % 16 + v.toNat % 16)),
          c := some (decide (256 ≤ s.w.toNat + v.toNat)) }))
  ∧ (SyntaxFD .SUBWF .subwf ∧ CodedB 0x0200 .subwf
    ∧ ByteEffect .subwf [.w]
        (fun s v => v - s.w)
        (fun s v => {
          z := some (decide (v = s.w)),
          dc := some (decide (s.w.toNat % 16 ≤ v.toNat % 16)),
          c := some (decide (s.w.toNat ≤ v.toNat)) }))

/-- ANDWF, IORWF and XORWF: syntax, encoding and whole effect on every register (R124, R132,
R139). -/
def Obligations.LogicFile : Prop :=
  (SyntaxFD .ANDWF .andwf ∧ CodedB 0x0500 .andwf
    ∧ ByteEffect .andwf [.w] (fun s v => s.w &&& v) (fun s v => zOf (s.w &&& v)))
  ∧ (SyntaxFD .IORWF .iorwf ∧ CodedB 0x0400 .iorwf
    ∧ ByteEffect .iorwf [.w] (fun s v => s.w ||| v) (fun s v => zOf (s.w ||| v)))
  ∧ (SyntaxFD .XORWF .xorwf ∧ CodedB 0x0600 .xorwf
    ∧ ByteEffect .xorwf [.w] (fun s v => s.w ^^^ v) (fun s v => zOf (s.w ^^^ v)))

/-- COMF, DECF, INCF and MOVF: syntax, encoding and whole effect on every register (R127, R128,
R130, R133). -/
def Obligations.UnaryFile : Prop :=
  (SyntaxFD .COMF .comf ∧ CodedB 0x0900 .comf
    ∧ ByteEffect .comf [] (fun _ v => ~~~v) (fun _ v => zOf (~~~v)))
  ∧ (SyntaxFD .DECF .decf ∧ CodedB 0x0300 .decf
    ∧ ByteEffect .decf [] (fun _ v => v - 1) (fun _ v => zOf (v - 1)))
  ∧ (SyntaxFD .INCF .incf ∧ CodedB 0x0A00 .incf
    ∧ ByteEffect .incf [] (fun _ v => v + 1) (fun _ v => zOf (v + 1)))
  ∧ (SyntaxFD .MOVF .movf ∧ CodedB 0x0800 .movf
    ∧ ByteEffect .movf [] (fun _ v => v) (fun _ v => zOf v))

/-- RLF, RRF and SWAPF: syntax, encoding and whole effect on every register; the rotations are those
of the 9 bits `C : f` (R135, R136, R138). -/
def Obligations.RotateAndSwapFile : Prop :=
  (SyntaxFD .RLF .rlf ∧ CodedB 0x0D00 .rlf
    ∧ ByteEffect .rlf [.c]
        (fun s v => v.extractLsb' 0 7 ++ BitVec.ofBool (s.status.getLsbD 0))
        (fun _ v => { z := none, dc := none, c := some (v.getLsbD 7) }))
  ∧ (SyntaxFD .RRF .rrf ∧ CodedB 0x0C00 .rrf
    ∧ ByteEffect .rrf [.c]
        (fun s v => BitVec.ofBool (s.status.getLsbD 0) ++ v.extractLsb' 1 7)
        (fun _ v => { z := none, dc := none, c := some (v.getLsbD 0) }))
  ∧ (SyntaxFD .SWAPF .swapf ∧ CodedB 0x0E00 .swapf
    ∧ ByteEffect .swapf [] (fun _ v => (v <<< 4) ||| (v >>> 4)) (fun _ _ => noFlags))

/-- CLRF, MOVWF and CLRW: syntax, encoding and whole effect on every register; the register written
is not read (R125, R134, R126). With PORTB as destination `rb_last` keeps its value: that a write to
PORTB does not end a mismatch is the model's reading of R225 (log entry 13). -/
def Obligations.ClearAndMoveToFile : Prop :=
  (SyntaxF .CLRF .clrf ∧ CodedF 0x0180 .clrf
    ∧ ByteWriteEffect .clrf [] (fun _ => 0x00) { z := some true, dc := none, c := none })
  ∧ (SyntaxNone .CLRW .clrw ∧ CodedN 0x0100 0x3F80 .clrw
    ∧ ∀ s : State, exec .clrw s = .next { s with
        w := 0x00, status := putFlags { z := some true, dc := none, c := none } s.status,
        pc := s.pc + 1, cyc := 1, unwritten := s.marksAfter [.w, .z] })
  ∧ (SyntaxF .MOVWF .movwf ∧ CodedF 0x0080 .movwf
    ∧ ByteWriteEffect .movwf [.w] (fun s => s.w) noFlags)

/-- DECFSZ and INCFSZ: syntax, encoding and whole effect on every register, the skip among it
(R129, R131). -/
def Obligations.CountAndSkip : Prop :=
  (SyntaxFD .DECFSZ .decfsz ∧ CodedB 0x0B00 .decfsz ∧ ByteSkipEffect .decfsz (fun v => v - 1))
  ∧ (SyntaxFD .INCFSZ .incfsz ∧ CodedB 0x0F00 .incfsz ∧ ByteSkipEffect .incfsz (fun v => v + 1))

/-! ### Bit-oriented instructions -/

/-- BCF and BSF: syntax, encoding and whole effect on every register (R151, R152). -/
def Obligations.ClearAndSetBit : Prop :=
  (SyntaxFB .BCF .bcf ∧ CodedT 0x1000 .bcf
    ∧ BitWriteEffect .bcf (fun v b => v &&& (0xFF ^^^ (1#8 <<< b.toNat))))
  ∧ (SyntaxFB .BSF .bsf ∧ CodedT 0x1400 .bsf
    ∧ BitWriteEffect .bsf (fun v b => v ||| (1#8 <<< b.toNat)))

/-- BTFSC and BTFSS: syntax, encoding and whole effect on every register (R153, R154). -/
def Obligations.TestBitAndSkip : Prop :=
  (SyntaxFB .BTFSC .btfsc ∧ CodedT 0x1800 .btfsc ∧ BitTestEffect .btfsc false)
  ∧ (SyntaxFB .BTFSS .btfss ∧ CodedT 0x1C00 .btfss ∧ BitTestEffect .btfss true)

/-! ### Control transfer -/

/-- CALL: syntax, encoding and whole effect under both stack policies (R171, R170, R29). -/
def Obligations.CallSubroutine : Prop :=
  SyntaxK11 .CALL .call ∧ CodedJ 0x2000 .call
    ∧ ∀ (k : BitVec 11) (s : State),
        (s.cfg.stackPolicy = .fault →
          (∀ h : s.sp.val < 8,
            exec (.call k) s = .next { s with
              stack := s.stack.set s.sp.val (s.pc + 1) h, sp := Fin.ofNat 9 (s.sp.val + 1),
              pc := s.pclath.extractLsb' 3 2 ++ k, cyc := 2 })
          ∧ (s.sp.val = 8 → exec (.call k) s = .fault (.stackOverflow s.pc)))
        ∧ (s.cfg.stackPolicy = .circular →
            exec (.call k) s = .next { s with
              stack := s.stack.set s.stackPtr.val (s.pc + 1) s.stackPtr.isLt,
              stackPtr := s.stackPtr + 1,
              pc := s.pclath.extractLsb' 3 2 ++ k, cyc := 2 })

/-- GOTO: syntax, encoding and whole effect (R172, R170). -/
def Obligations.GotoAddress : Prop :=
  SyntaxK11 .GOTO .goto ∧ CodedJ 0x2800 .goto
    ∧ ∀ (k : BitVec 11) (s : State),
        exec (.goto k) s = .next { s with pc := s.pclath.extractLsb' 3 2 ++ k, cyc := 2 }

/-- RETFIE, RETLW and RETURN: syntax, encoding and whole effect under both stack policies (R173 to
R175, R28, R29). -/
def Obligations.ReturnInstructions : Prop :=
  (SyntaxNone .RETFIE .retfie ∧ CodedN 0x0009 0x3FFF .retfie
    ∧ ReturnEffect .retfie (fun t => { t with intcon := t.intcon ||| 0x80 }))
  ∧ (SyntaxK8 .RETLW .retlw ∧ CodedL 0x3400 0x3C00 .retlw
    ∧ ∀ k, ReturnEffect (.retlw k) (fun t => { t with w := k, unwritten := t.marksAfter [.w] }))
  ∧ (SyntaxNone .RETURN .ret ∧ CodedN 0x0008 0x3FFF .ret ∧ ReturnEffect .ret id)

/-! ### System instructions -/

/-- CLRWDT: syntax, encoding and whole effect (R181). -/
def Obligations.ClearWatchdogTimer : Prop :=
  SyntaxNone .CLRWDT .clrwdt ∧ CodedN 0x0064 0x3FFF .clrwdt
    ∧ ∀ s : State, exec .clrwdt s = .next { s with
        wdt := 0, prescaler := if s.optionReg.getLsbD 3 = true then 0 else s.prescaler,
        status := s.status ||| 0x18, pc := s.pc + 1, cyc := 1 }

/-- NOP: syntax, encoding and whole effect (R182). -/
def Obligations.NoOperation : Prop :=
  SyntaxNone .NOP .nop ∧ CodedN 0x0000 0x3F9F .nop
    ∧ ∀ s : State, exec .nop s = .next { s with pc := s.pc + 1, cyc := 1 }

/-- SLEEP: syntax, encoding and whole effect (R183). -/
def Obligations.EnterSleep : Prop :=
  SyntaxNone .SLEEP .sleep ∧ CodedN 0x0063 0x3FFF .sleep
    ∧ ∀ s : State, exec .sleep s = .next { s with
        wdt := 0, prescaler := if s.optionReg.getLsbD 3 = true then 0 else s.prescaler,
        status := (s.status &&& 0xE7) ||| 0x10, asleep := true, pc := s.pc + 1, cyc := 1 }

/-! ### Operands and the register file -/

/-- The effective address of an `f` field: indirect through FSR when `f` is 0, else RP0 as bit 7; IRP
and RP1 take no part (R76, R75, R77, R31). -/
def Obligations.EffectiveAddress : Prop :=
  (∀ s : State, s.ea 0 = s.fsr)
  ∧ (∀ (f : FileField) (s : State), f ≠ 0 →
      (s.ea f).toNat = (if s.status.getLsbD 5 = true then 128 else 0) + f.toNat)
  ∧ (∀ (f : FileField) (s : State) (b : Byte), b &&& 0x3F = s.status &&& 0x3F →
      State.ea { s with status := b } f = s.ea f)
  ∧ (∀ s : State, s.fsr = 0x00 ∨ s.fsr = 0x80 → s.operand 0 = .absent)

/-- The register each of the 256 data addresses names (R79). -/
def Obligations.DataAddressMap : Prop :=
  (phys 0x00 = .absent ∧ phys 0x80 = .absent ∧ phys 0x01 = .tmr0 ∧ phys 0x81 = .optionReg
    ∧ phys 0x02 = .pcl ∧ phys 0x82 = .pcl ∧ phys 0x03 = .status ∧ phys 0x83 = .status
    ∧ phys 0x04 = .fsr ∧ phys 0x84 = .fsr ∧ phys 0x05 = .portA ∧ phys 0x85 = .trisA
    ∧ phys 0x06 = .portB ∧ phys 0x86 = .trisB ∧ phys 0x07 = .absent ∧ phys 0x87 = .absent
    ∧ phys 0x08 = .eedata ∧ phys 0x88 = .eecon1 ∧ phys 0x09 = .eeadr ∧ phys 0x89 = .eecon2
    ∧ phys 0x0A = .pclath ∧ phys 0x8A = .pclath ∧ phys 0x0B = .intcon ∧ phys 0x8B = .intcon)
  ∧ (∀ a : DataAddr, 0x0C ≤ a.toNat → a.toNat ≤ 0x4F → phys a = .gpr a)
  ∧ (∀ a : DataAddr, 0x8C ≤ a.toNat → a.toNat ≤ 0xCF → phys a = .gpr (a - 0x80))
  ∧ (∀ a : DataAddr, 0x50 ≤ a.toNat → a.toNat ≤ 0x7F → phys a = .absent)
  ∧ (∀ a : DataAddr, 0xD0 ≤ a.toNat → phys a = .absent)

/-- The value a read of each register gives an instruction at `s.pc`, and the one side effect a read
has (R80, R23, R225). -/
def Obligations.RegisterRead : Prop :=
  ∀ s : State,
    s.advance.regValue .absent = 0x00
    ∧ s.advance.regValue .eecon2 = 0x00
    ∧ s.advance.regValue .pcl = (s.pc + 1).setWidth 8
    ∧ s.advance.regValue .status = s.status
    ∧ s.advance.regValue .pclath = s.pclath.setWidth 8
    ∧ s.advance.regValue .portA = s.portReadA.setWidth 8
    ∧ s.advance.regValue .portB = s.portReadB
    ∧ s.advance.regValue .trisA = s.trisA.setWidth 8
    ∧ s.advance.regValue .eecon1 = s.eecon1.setWidth 8
    ∧ s.advance.regValue .tmr0 = s.tmr0
    ∧ s.advance.regValue .fsr = s.fsr
    ∧ s.advance.regValue .intcon = s.intcon
    ∧ s.advance.regValue .optionReg = s.optionReg
    ∧ s.advance.regValue .trisB = s.trisB
    ∧ s.advance.regValue .eedata = s.eedata
    ∧ s.advance.regValue .eeadr = s.eeadr
    ∧ (∀ a : DataAddr, s.advance.regValue (.gpr a) = s.ram.read a.toNat)
    ∧ (∀ r : Reg, r ≠ .portB → s.afterRead r = s)
    ∧ s.afterRead .portB = { s with rbLast := s.pinB.extractLsb' 4 4 }

/-- What a write of `v` does to each register, the flags apart (R81, R38, R83, R222). `u` says which
flags the writing instruction affects. -/
def Obligations.RegisterWrite : Prop :=
  ∀ (s : State) (u : FlagUpdate) (v : Byte),
    s.storeReg u v .absent = s
    ∧ s.storeReg u v .status = { s with
        status := v.extractLsb' 5 3 ++ s.status.extractLsb' 3 2
          ++ (if u = noFlags then v.extractLsb' 0 3 else s.status.extractLsb' 0 3) }
    ∧ s.storeReg u v .pcl = { s with pc := s.pclath ++ v, cyc := 2 }
    ∧ s.storeReg u v .pclath = { s with pclath := v.setWidth 5 }
    ∧ s.storeReg u v .portA = { s with latA := v.setWidth 5 }
    ∧ s.storeReg u v .portB = { s with latB := v }
    ∧ s.storeReg u v .trisA = { s with trisA := v.setWidth 5 }
    ∧ s.storeReg u v .trisB = { s with trisB := v }
    ∧ s.storeReg u v .fsr = { s with fsr := v }
    ∧ s.storeReg u v .optionReg = { s with optionReg := v }
    ∧ s.storeReg u v .intcon = { s with intcon := v }
    ∧ s.storeReg u v .eedata = { s with eedata := v }
    ∧ s.storeReg u v .eeadr = { s with eeadr := v }
    ∧ s.storeReg u v .tmr0 = { s with
        tmr0 := v, t0Inhibit := 2,
        prescaler := if s.optionReg.getLsbD 3 = true then s.prescaler else 0 }
    ∧ (∀ a : DataAddr, s.storeReg u v (.gpr a) = { s with ram := s.ram.write a.toNat v })
    ∧ (∀ x marks, s.writeReg .eecon1 x marks = .fault (.unmodelled .eeprom (s.pc - 1)))
    ∧ (∀ x marks, s.writeReg .eecon2 x marks = .fault (.unmodelled .eeprom (s.pc - 1)))

/-- A general purpose register holds what was last written to it, and a write to one leaves every
other byte alone (R51, R91). -/
def Obligations.ReadAfterWrite : Prop :=
  ∀ (s : State) (u : FlagUpdate) (v : Byte) (a b : DataAddr),
    (s.storeReg u v (.gpr a)).regValue (.gpr a) = v
    ∧ (b ≠ a → (s.storeReg u v (.gpr a)).regValue (.gpr b) = s.regValue (.gpr b))
    ∧ (∀ e : Nat, (s.storeReg u v (.gpr a)).eeprom.read e = s.eeprom.read e)

/-- Two byte memories in canonical form that read the same at every address are the same list. -/
def Obligations.EqualReadsEqualMemory : Prop :=
  ∀ (lo hi : Nat) (m n : Memory), Memory.wf lo hi m → Memory.wf lo hi n →
    (∀ a : Nat, m.read a = n.read a) → m = n

/-- STATUS as a destination, bit by bit (R38), and the rule's example CLRF of STATUS. -/
def Obligations.StatusAsDestination : Prop :=
  (∀ (s : State) (x : ByteResult) (marks : List UnknownLoc),
    ∃ t, s.writeReg .status x marks = .next t
      ∧ t.status.extractLsb' 5 3 = x.value.extractLsb' 5 3
      ∧ t.status.extractLsb' 3 2 = s.status.extractLsb' 3 2
      ∧ (x.flags = noFlags → t.status.extractLsb' 0 3 = x.value.extractLsb' 0 3)
      ∧ (x.flags ≠ noFlags →
          t.status.getLsbD 2 = x.flags.z.getD (s.status.getLsbD 2)
          ∧ t.status.getLsbD 1 = x.flags.dc.getD (s.status.getLsbD 1)
          ∧ t.status.getLsbD 0 = x.flags.c.getD (s.status.getLsbD 0)))
  ∧ (∀ s : State, ∃ t, exec (.clrf 0x03) s = .next t
      ∧ t.status = 0b000#3 ++ s.status.extractLsb' 3 2 ++ 1#1 ++ s.status.extractLsb' 0 2)

/-- A write to PCL is a jump of two cycles to `PCLATH : v`, with the flags written as usual; ADDWF
with PCL as destination adds W to the low byte of the address after it; a skip instruction with PCL as
destination is unmodelled (R83). What the instruction depends on, W or (for `f` = 0) FSR, is assumed
known under UNINIT_POLICY = fault. -/
def Obligations.WriteToPclJumps : Prop :=
  (∀ (s : State) (x : ByteResult) (marks : List UnknownLoc),
    ∃ t, s.writeReg .pcl x marks = .next t ∧ t.pc = s.pclath ++ x.value ∧ t.cyc = 2
      ∧ t.status = putFlags x.flags s.status)
  ∧ (∀ s : State, s.Known [.w] →
      ∃ t, exec (.addwf .f 0x02) s = .next t
        ∧ t.pc = s.pclath ++ ((s.pc + 1).setWidth 8 + s.w) ∧ t.cyc = 2
        ∧ (t.status.getLsbD 0 = true ↔ 256 ≤ ((s.pc + 1).setWidth 8 : Byte).toNat + s.w.toNat))
  ∧ (∀ (f : FileField) (s : State), s.operand f = .pcl → s.Known (pointerNeeds f) →
      exec (.decfsz .f f) s = .fault (.unmodelled .skipWithPclDestination s.pc)
      ∧ exec (.incfsz .f f) s = .fault (.unmodelled .skipWithPclDestination s.pc))

/-- What a read of a port gives for each pin (R226); a write goes to the latch whatever TRIS holds. -/
def Obligations.PortRead : Prop :=
  ∀ s : State,
    (∀ i : Nat, i < 8 →
      s.portReadB.getLsbD i = if s.trisB.getLsbD i = true then s.pinB.getLsbD i else s.latB.getLsbD i)
    ∧ (∀ i : Nat, i < 4 →
      s.portReadA.getLsbD i = if s.trisA.getLsbD i = true then s.pinA.getLsbD i else s.latA.getLsbD i)
    ∧ s.portReadA.getLsbD 4
        = (if s.trisA.getLsbD 4 = true ∨ s.latA.getLsbD 4 = true then s.pinA.getLsbD 4 else false)
    ∧ (∀ (u : FlagUpdate) (v : Byte),
        (s.storeReg u v .portA).latA = v.setWidth 5 ∧ (s.storeReg u v .portB).latB = v)

/-! ### Arithmetic and the return stack -/

/-- The arithmetic functions: the wrapped results, and C and DC as carry and as no borrow (R121). -/
def Obligations.ArithmeticFunctions : Prop :=
  ∀ a b : Byte,
    (add8 a b).value = a + b
    ∧ (add8 a b).flags = {
        z := some (decide (a + b = 0)),
        dc := some (decide (16 ≤ a.toNat % 16 + b.toNat % 16)),
        c := some (decide (256 ≤ a.toNat + b.toNat)) }
    ∧ (sub8 a b).value = a - b
    ∧ (sub8 a b).flags = {
        z := some (decide (a - b = 0)),
        dc := some (decide (b.toNat % 16 ≤ a.toNat % 16)),
        c := some (decide (b.toNat ≤ a.toNat)) }

/-- Push and Pop. Under STACK_POLICY = fault an entry is pushed at the depth and popped from it, and a
full or empty stack is a fault; under circular neither faults, and a pop gives back the last push
(R27, R28, R29). -/
def Obligations.PushAndPop : Prop :=
  (∀ (s : State) (v at' : ProgAddr), s.cfg.stackPolicy = .fault →
    (∀ h : s.sp.val < 8, s.push v at' = .ok { s with
        stack := s.stack.set s.sp.val v h, sp := Fin.ofNat 9 (s.sp.val + 1) })
    ∧ (s.sp.val = 8 → s.push v at' = .error (.stackOverflow at'))
    ∧ (∀ (n : Nat) (a : ProgAddr), s.sp.val = n + 1 → s.stack[n]? = some a →
        s.pop at' = .ok (a, { s with sp := Fin.ofNat 9 n }))
    ∧ (s.sp.val = 0 → s.pop at' = .error (.stackUnderflow at')))
  ∧ (∀ (s : State) (v at' : ProgAddr), s.cfg.stackPolicy = .circular →
    s.push v at' = .ok { s with
      stack := s.stack.set s.stackPtr.val v s.stackPtr.isLt, stackPtr := s.stackPtr + 1 }
    ∧ (∀ a : ProgAddr, s.stack[(s.stackPtr - 1).val]? = some a →
        s.pop at' = .ok (a, { s with stackPtr := s.stackPtr - 1 }))
    ∧ (∀ t, s.push v at' = .ok t → t.pop at' = .ok (v, { t with stackPtr := s.stackPtr })))

/-! ### What an instruction leaves alone -/

/-- Frame of data memory: an instruction writes no byte but the general purpose register its `f` field
names as destination, and no byte of the data EEPROM (R60, R82, R96). -/
def Obligations.DataMemoryFrame : Prop :=
  ∀ (i : Instr) (s t : State), exec i s = .next t →
    (∀ n : Nat, (∀ a : DataAddr, destReg i s = some (.gpr a) → n ≠ a.toNat) →
      t.ram.read n = s.ram.read n)
    ∧ t.eeprom = s.eeprom

/-- Frame of the special registers: each changes only when it is the destination, INTCON also by
RETFIE, the prescaler also by CLRWDT, SLEEP and a write to TMR0 (R60, R181, R183, R222), and the PORTB
levels latched by a read of PORTB. That CLRF and MOVWF of PORTB, which read nothing, do not latch them
is the model's reading of R225 (log entry 13). -/
def Obligations.SpecialRegisterFrame : Prop :=
  ∀ (i : Instr) (s t : State), exec i s = .next t →
    (destReg i s ≠ some .tmr0 → t.tmr0 = s.tmr0 ∧ t.t0Inhibit = s.t0Inhibit)
    ∧ (destReg i s ≠ some .tmr0 → i ≠ .clrwdt → i ≠ .sleep → t.prescaler = s.prescaler)
    ∧ (destReg i s ≠ some .optionReg → t.optionReg = s.optionReg)
    ∧ (destReg i s ≠ some .fsr → t.fsr = s.fsr)
    ∧ (destReg i s ≠ some .portA → t.latA = s.latA)
    ∧ (destReg i s ≠ some .trisA → t.trisA = s.trisA)
    ∧ (destReg i s ≠ some .portB → t.latB = s.latB)
    ∧ (destReg i s ≠ some .trisB → t.trisB = s.trisB)
    ∧ (destReg i s ≠ some .eedata → t.eedata = s.eedata)
    ∧ (destReg i s ≠ some .eeadr → t.eeadr = s.eeadr)
    ∧ (destReg i s ≠ some .pclath → t.pclath = s.pclath)
    ∧ (destReg i s ≠ some .intcon → i ≠ .retfie → t.intcon = s.intcon)
    ∧ t.eecon1 = s.eecon1
    ∧ (readReg i s ≠ some .portB → t.rbLast = s.rbLast)

/-- Frame of STATUS: an instruction leaves every flag it does not write unchanged, `/TO` and `/PD` are
written by CLRWDT and SLEEP alone, and IRP, RP1 and RP0 only with STATUS as destination (R39). -/
def Obligations.FlagFrame : Prop :=
  ∀ (i : Instr) (s t : State), exec i s = .next t →
    (i ≠ .clrwdt → i ≠ .sleep → t.status.extractLsb' 3 2 = s.status.extractLsb' 3 2)
    ∧ (destReg i s ≠ some .status → t.status.extractLsb' 5 3 = s.status.extractLsb' 5 3)
    ∧ (destReg i s ≠ some .status ∨ flagClass i ≠ .none →
        (flagClass i ≠ .zdcc → t.status.getLsbD 1 = s.status.getLsbD 1)
        ∧ (flagClass i ≠ .zdcc → flagClass i ≠ .z → t.status.getLsbD 2 = s.status.getLsbD 2)
        ∧ (flagClass i ≠ .zdcc → flagClass i ≠ .c → t.status.getLsbD 0 = s.status.getLsbD 0))

/-- W is written by the instructions rule R21 lists and by no other; the return stack is used by CALL,
RETURN, RETLW and RETFIE and by no other, and a pop leaves the entries as they are (R21, R27, R28). -/
def Obligations.WorkingRegisterAndStackFrame : Prop :=
  ∀ (i : Instr) (s t : State), exec i s = .next t →
    (writesW i = false → t.w = s.w)
    ∧ (usesStack i = false → t.stack = s.stack ∧ t.sp = s.sp ∧ t.stackPtr = s.stackPtr)
    ∧ ((∀ k, i ≠ .call k) → t.stack = s.stack)

/-- No instruction writes program memory, the configuration, the pins or what the environment will do;
the watchdog is cleared by CLRWDT and SLEEP alone and only SLEEP falls asleep; an instruction costs
one or two cycles (R73, R60, R265). -/
def Obligations.NeverWrittenByInstructions : Prop :=
  ∀ (i : Instr) (s t : State), exec i s = .next t →
    t.prog = s.prog ∧ t.cfg = s.cfg ∧ t.pinA = s.pinA ∧ t.pinB = s.pinB ∧ t.pinMclr = s.pinMclr
    ∧ t.env = s.env ∧ t.resets = s.resets
    ∧ (i ≠ .clrwdt → i ≠ .sleep → t.wdt = s.wdt)
    ∧ (i ≠ .sleep → t.asleep = s.asleep)
    ∧ (t.cyc = 1 ∨ t.cyc = 2)

/-! ### The environment and the devices -/

/-- The environment writes nothing but the pins, the flag bits of INTCON, TMR0 and the prescaler when
Timer0 counts T0CKI edges, the mark of RBIF (R59), and what is left of its own inputs (R231). -/
def Obligations.EnvironmentFrame : Prop :=
  ∀ s : State,
    let e := (environment s).state
    e = { s with
        pinA := e.pinA, pinB := e.pinB, pinMclr := e.pinMclr, intcon := e.intcon, tmr0 := e.tmr0,
        prescaler := e.prescaler, unwritten := e.unwritten, env := s.env.tail }
    ∧ (e.unwritten = s.unwritten ∨ e.unwritten = s.marksAfter [.rbif])
    ∧ e.intcon &&& 0xF8 = s.intcon &&& 0xF8
    ∧ s.intcon &&& ~~~e.intcon = 0
    ∧ (s.t0cs = false ∨ s.asleep = true → e.tmr0 = s.tmr0 ∧ e.prescaler = s.prescaler)

/-- Each thing the environment may do at a boundary, with its condition and whole effect (R231, R224,
R221), and that a boundary does the first list of `s.env` in its order, then looks at the level on MCLR
and at the port change detector. The queue, the edges with a direction, and that of several reset
requests the first stands are the model's choices (log entries 3, 21 and 9). -/
def Obligations.EnvironmentActions : Prop :=
  (∀ o : EnvOutcome,
    (∀ v, o.event (.pinsA v) = { o with state := { o.state with pinA := v } })
    ∧ (∀ v, o.event (.pinsB v) = { o with state := o.state.setPinsB v })
    ∧ o.event (.mclr true) = { o with state := { o.state with pinMclr := true } }
    ∧ (o.reset = none →
        o.event (.mclr false)
          = { o with state := { o.state with pinMclr := false }, reset := some .mclr })
    ∧ (o.reset ≠ none →
        o.event (.mclr false) = { o with state := { o.state with pinMclr := false } })
    ∧ (o.state.t0cs = true → o.state.asleep = false →
        (o.state.optionReg.getLsbD 4 = false →
          o.event (.t0Edge true) = { o with state := o.state.tick } ∧ o.event (.t0Edge false) = o)
        ∧ (o.state.optionReg.getLsbD 4 = true →
          o.event (.t0Edge false) = { o with state := o.state.tick } ∧ o.event (.t0Edge true) = o))
    ∧ (o.state.t0cs = false ∨ o.state.asleep = true → ∀ rising, o.event (.t0Edge rising) = o)
    ∧ (o.state.cfg.wdtEnabled = false → o.event .wdtTimeout = o)
    ∧ (o.state.cfg.wdtEnabled = true → o.state.asleep = true →
        o.event .wdtTimeout = { o with wdtWake := true })
    ∧ (o.state.cfg.wdtEnabled = true → o.state.asleep = false → o.reset = none →
        o.event .wdtTimeout = { o with reset := some .watchdog })
    ∧ (o.state.cfg.wdtEnabled = true → o.state.asleep = false → o.reset ≠ none → o.event .wdtTimeout = o)
    ∧ (o.reset = none → o.event .powerOn = { o with reset := some .powerOn })
    ∧ (o.reset ≠ none → o.event .powerOn = o))
  ∧ (∀ (s : State) (l : List EnvEvent) (later : List (List EnvEvent)),
      s.env = l :: later ∨ (s.env = [] ∧ l = [] ∧ later = []) →
        let o := l.foldl EnvOutcome.event ⟨{ s with env := later }, none, false⟩
        (o.state.pinMclr = true ∨ o.reset ≠ none →
          environment s = { o with state := o.state.portChange })
        ∧ (o.state.pinMclr = false → o.reset = none →
          environment s = { o with state := o.state.portChange, reset := some .mclr }))

/-- INTF is set by the selected edge on RB0/INT, and a change of PORTB's pins does nothing else
(R227). -/
def Obligations.ExternalInterruptEdge : Prop :=
  ∀ (s : State) (v : Byte),
    (s.optionReg.getLsbD 6 = true → s.pinB.getLsbD 0 = false → v.getLsbD 0 = true →
      s.setPinsB v = { s with pinB := v, intcon := s.intcon ||| 0x02 })
    ∧ (s.optionReg.getLsbD 6 = false → s.pinB.getLsbD 0 = true → v.getLsbD 0 = false →
      s.setPinsB v = { s with pinB := v, intcon := s.intcon ||| 0x02 })
    ∧ (s.pinB.getLsbD 0 = v.getLsbD 0 ∨ s.optionReg.getLsbD 6 = s.pinB.getLsbD 0 →
      s.setPinsB v = { s with pinB := v })

/-- RB port change: at every boundary RBIF is set while an input pin of RB7:RB4 differs from the level
at the last read of PORTB; clearing RBIF is not enough, reading PORTB ends the mismatch (R225). -/
def Obligations.PortChangeFlag : Prop :=
  (∀ (s : State) (i : Nat), 4 ≤ i → i < 8 →
    let e := (environment s).state
    e.trisB.getLsbD i = true → e.pinB.getLsbD i ≠ e.rbLast.getLsbD (i - 4) →
      e.intcon.getLsbD 0 = true)
  ∧ (∀ s : State, s.env = [] →
      (∀ i : Nat, 4 ≤ i → i < 8 → s.trisB.getLsbD i = true →
        s.pinB.getLsbD i = s.rbLast.getLsbD (i - 4)) →
      (environment s).state = s)
  ∧ (∀ s : State, (s.afterRead .portB).rbLast = s.pinB.extractLsb' 4 4
      ∧ (s.afterRead .portB).portChange = s.afterRead .portB)

/-- An interrupt is pending exactly when its flag and its enable bit are both 1 (R211, R57). -/
def Obligations.PendingInterrupts : Prop :=
  ∀ s : State, s.pending = true ↔
    (s.intcon.getLsbD 5 = true ∧ s.intcon.getLsbD 2 = true)
    ∨ (s.intcon.getLsbD 4 = true ∧ s.intcon.getLsbD 1 = true)
    ∨ (s.intcon.getLsbD 3 = true ∧ s.intcon.getLsbD 0 = true)
    ∨ (s.intcon.getLsbD 6 = true ∧ s.eecon1.getLsbD 4 = true)

/-- One tick of Timer0, by the inhibit, the prescaler assignment and the rate, and the overflow flag
(R221, R223). -/
def Obligations.TimerTick : Prop :=
  ∀ s : State,
    (s.t0Inhibit ≠ 0 → s.tick = s)
    ∧ (s.t0Inhibit = 0 → s.optionReg.getLsbD 3 = true → s.tmr0 ≠ 0xFF →
        s.tick = { s with tmr0 := s.tmr0 + 1 })
    ∧ (s.t0Inhibit = 0 → s.optionReg.getLsbD 3 = true → s.tmr0 = 0xFF →
        s.tick = { s with tmr0 := 0x00, intcon := s.intcon ||| 0x04 })
    ∧ (s.t0Inhibit = 0 → s.optionReg.getLsbD 3 = false →
        (s.prescaler.toNat + 1) % 2 ^ ((s.optionReg &&& 0x07).toNat + 1) ≠ 0 →
        s.tick = { s with prescaler := s.prescaler + 1 })
    ∧ (s.t0Inhibit = 0 → s.optionReg.getLsbD 3 = false →
        (s.prescaler.toNat + 1) % 2 ^ ((s.optionReg &&& 0x07).toNat + 1) = 0 →
        s.tick = { s with
          prescaler := s.prescaler + 1, tmr0 := s.tmr0 + 1,
          intcon := if s.tmr0 = 0xFF then s.intcon ||| 0x04 else s.intcon })

/-- `n` instruction cycles with the instruction clock as source and the prescaler on the watchdog:
TMR0 counts `n`, modulo 256, and T0IF records an overflow (R221, R223). -/
def Obligations.TimerCountsCycles : Prop :=
  ∀ (n : Nat) (s : State), s.t0cs = false → s.psa = true → s.t0Inhibit = 0 →
    State.cycles n s = { s with
      tmr0 := s.tmr0 + BitVec.ofNat 8 n,
      intcon := if 256 ≤ s.tmr0.toNat + n then s.intcon ||| 0x04 else s.intcon }

/-- `n` instruction cycles with the instruction clock as source and the prescaler on Timer0: TMR0
counts once for each multiple of `2^(PS+1)` the prescaler reaches (R221, R223). -/
def Obligations.TimerCountsThroughPrescaler : Prop :=
  ∀ (n : Nat) (s : State), s.t0cs = false → s.psa = false → s.t0Inhibit = 0 →
    let counts := (s.prescaler.toNat + n) / 2 ^ (s.ps + 1) - s.prescaler.toNat / 2 ^ (s.ps + 1)
    State.cycles n s = { s with
      prescaler := s.prescaler + BitVec.ofNat 8 n,
      tmr0 := s.tmr0 + BitVec.ofNat 8 counts,
      intcon := if 256 ≤ s.tmr0.toNat + counts then s.intcon ||| 0x04 else s.intcon }

/-- A write to TMR0 clears the prescaler when Timer0 owns it, and drops the ticks of the next two
instruction cycles, those of T0CKI edges included (R222). -/
def Obligations.TimerWriteInhibits : Prop :=
  ∀ (s : State) (u : FlagUpdate) (v : Byte),
    let t := s.storeReg u v .tmr0
    t.tmr0 = v ∧ t.t0Inhibit = 2 ∧ State.reset.t0Inhibit = 0
    ∧ (s.psa = false → t.prescaler = 0x00) ∧ (s.psa = true → t.prescaler = s.prescaler)
    ∧ t.optionReg = s.optionReg
    ∧ t.tick = t ∧ t.oneCycle.tick = t.oneCycle
    ∧ State.cycles 2 t = { t with t0Inhibit := 0 }
    ∧ (s.t0cs = false → s.psa = true → (State.cycles 3 t).tmr0 = v + 1)

/-! ### One step -/

/-- A step with nothing happening at its boundary is the meaning of the instruction at `pc`, followed
by its instruction cycles; the general form is for the state the boundary leaves (R232, R116). -/
def Obligations.StepRunsDecodedInstruction : Prop :=
  (∀ (s t : State) (w : InstrWord) (i : Instr),
    boundary s = .run t → t.prog.read (t.pc.toNat % t.cfg.progWords) = some w → decode w = .ok i →
      step s = onNext (fun u => State.cycles u.cyc u) (exec i t))
  ∧ (∀ (s : State) (w : InstrWord) (i : Instr),
    s.quiet = true → s.asleep = false → (s.gie && s.pending) = false →
      s.prog.read (s.pc.toNat % s.cfg.progWords) = some w → decode w = .ok i →
        step s = onNext (fun u => State.cycles u.cyc u) (exec i s))

/-- A fetch from an address the image does not define, and an unassigned word, are faults of the step
(R72, R115); addresses equal modulo PROG_WORDS fetch the same word. -/
def Obligations.FetchFaults : Prop :=
  (∀ s t : State, boundary s = .run t → t.prog.read (t.pc.toNat % t.cfg.progWords) = none →
    step s = .fault (.fetchOutsideProgram t.pc))
  ∧ (∀ (s t : State) (w : InstrWord), boundary s = .run t →
      t.prog.read (t.pc.toNat % t.cfg.progWords) = some w → decode w = .error (.illegal w) →
        step s = .fault (.illegalInstruction t.pc w))
  ∧ (∀ (s : State) (a b : ProgAddr) (w : InstrWord),
      a.toNat % s.cfg.progWords = b.toNat % s.cfg.progWords →
        s.progRead a = .ok w → s.progRead b = .ok w)

/-- Interrupt entry: with GIE and a pending source at a boundary of an awake core, the step pushes
`pc`, clears GIE, goes to 0004h and takes two cycles; nothing else changes. With GIE 0 or nothing
pending the instruction at `pc` runs instead (R212, R213, R29). -/
def Obligations.InterruptEntryStep : Prop :=
  ∀ s : State,
    let o := environment s
    let e := o.state
    o.reset = none → e.asleep = false →
      (e.gie = false ∨ e.pending = false → boundary s = .run e)
      ∧ (e.gie = true → e.pending = true →
      (e.cfg.stackPolicy = .fault → ∀ h : e.sp.val < 8,
        step s = .next (State.cycles 2 { e with
          stack := e.stack.set e.sp.val e.pc h, sp := Fin.ofNat 9 (e.sp.val + 1),
          intcon := e.intcon &&& 0x7F, pc := 0x0004, cyc := 2 }))
      ∧ (e.cfg.stackPolicy = .fault → e.sp.val = 8 → step s = .fault (.stackOverflow e.pc))
      ∧ (e.cfg.stackPolicy = .circular →
        step s = .next (State.cycles 2 { e with
          stack := e.stack.set e.stackPtr.val e.pc e.stackPtr.isLt, stackPtr := e.stackPtr + 1,
          intcon := e.intcon &&& 0x7F, pc := 0x0004, cyc := 2 })))

/-- Entry and return: a handler that is RETFIE alone comes back to the interrupted address with the
stack depth, W, STATUS, PCLATH and FSR as they were and GIE set, and since its flag is still set the
interrupt is entered again before the instruction there runs (R213, R215). -/
def Obligations.InterruptReturnsAndReenters : Prop :=
  ∀ s : State, s.quiet = true → s.asleep = false → s.gie = true → s.pending = true →
    s.prog.read (4 % s.cfg.progWords) = some 0x0009 →
    (s.cfg.stackPolicy = .fault → s.sp.val < 8) →
      ∃ u, core.run 2 s = .next u ∧ u.pc = s.pc ∧ u.sp = s.sp ∧ u.stackPtr = s.stackPtr
        ∧ u.gie = true ∧ u.w = s.w ∧ u.status = s.status ∧ u.pclath = s.pclath ∧ u.fsr = s.fsr
        ∧ u.ram = s.ram ∧ boundary u = .enter u

/-- Sleep and wake-up: asleep nothing executes until an enabled flag other than Timer0's is set or the
watchdog times out; then the instruction at `pc` runs in that step, GIE or not (R230, R232). A watchdog
wake-up also clears the watchdog and the prescaler (R252), the prescaler whatever PSA holds (log entry
18); a sleeping step costs no cycle (log entry 28). -/
def Obligations.SleepAndWakeUp : Prop :=
  ∀ s : State,
    let o := environment s
    let e := o.state
    let woken := (e.intcon.getLsbD 4 = true ∧ e.intcon.getLsbD 1 = true)
      ∨ (e.intcon.getLsbD 3 = true ∧ e.intcon.getLsbD 0 = true)
      ∨ (e.intcon.getLsbD 6 = true ∧ e.eecon1.getLsbD 4 = true)
    o.reset = none → e.asleep = true →
      (o.wdtWake = false → ¬ woken → step s = .next { e with cyc := 0 })
      ∧ (o.wdtWake = false → woken → boundary s = .run { e with asleep := false })
      ∧ (o.wdtWake = true → boundary s = .run { e with
          asleep := false, status := e.status &&& 0xEF, wdt := 0, prescaler := 0 })

/-- A reset request wins over a wake-up and over an interrupt, and every reset leaves the core awake
at 0000h with interrupts disabled and Bank 0 selected (R214, R251). A low level on MCLR after the events
of a boundary requests a reset, on MCLR when nothing else requested one, and while it stays low nothing
executes (R231, R251; log entry 19). The circular pointer is 0 by decision D8 (log entry 10). -/
def Obligations.ResetComesFirst : Prop :=
  (∀ (s : State) (k : ResetKind), (environment s).reset = some k →
    ∃ t, step s = .next t ∧ t = (environment s).state.resetBy k
      ∧ t.pc = 0x0000 ∧ t.asleep = false ∧ t.gie = false ∧ t.rp0 = false ∧ t.sp = 0
      ∧ t.stackPtr = 0 ∧ t.t0Inhibit = 0 ∧ t.prog = s.prog ∧ t.eeprom = s.eeprom)
  ∧ (∀ s : State, (environment s).state.pinMclr = false →
      (environment s).reset ≠ none
      ∧ ((∀ e ∈ s.env.headD [],
            e ≠ .powerOn ∧ (e = .wdtTimeout → s.cfg.wdtEnabled = false ∨ s.asleep = true)) →
          (environment s).reset = some .mclr))
  ∧ (∀ s : State, s.pinMclr = true →
      (∀ e ∈ s.env.headD [], e ≠ .mclr false ∧ e ≠ .powerOn
        ∧ (e = .wdtTimeout → s.cfg.wdtEnabled = false ∨ s.asleep = true)) →
          (environment s).reset = none)
  ∧ (∀ (n : Nat) (s : State), s.env = [] → s.pinMclr = false →
      ∃ t, core.run (n + 1) s = .next t ∧ t.pc = 0x0000 ∧ t.asleep = false ∧ t.gie = false
        ∧ t.w = s.w ∧ t.ram = s.ram ∧ t.tmr0 = s.tmr0 ∧ t.pinMclr = false)

/-- The register values after a reset on MCLR and after a watchdog reset (R252, R253, R254), the stack
by decision D8 (log entry 10). `rb_last` is unspecified after a reset (R225, U17; log entry 30), so
nothing is said of it or of the count of resets that chooses it; `cyc` is 0 by log entry 28. -/
def Obligations.WarmResetValues : Prop :=
  ∀ s : State,
    (let t := s.resetBy .mclr
     t = { s with
      pc := 0x0000, asleep := false, t0Inhibit := 0, sp := 0, stackPtr := 0, pclath := 0,
      optionReg := 0xFF, trisA := 0x1F, trisB := 0xFF, intcon := s.intcon &&& 0x01,
      eecon1 := s.eecon1 &&& 0x08, wdt := 0, prescaler := 0, cyc := 0,
      status := if s.asleep = true then 0x10 ||| (s.status &&& 0x07) else s.status &&& 0x1F,
      rbLast := t.rbLast, resets := t.resets })
    ∧ (let t := s.resetBy .watchdog
       t = { s with
      pc := 0x0000, asleep := false, t0Inhibit := 0, sp := 0, stackPtr := 0, pclath := 0,
      optionReg := 0xFF, trisA := 0x1F, trisB := 0xFF, intcon := s.intcon &&& 0x01,
      eecon1 := s.eecon1 &&& 0x08, wdt := 0, prescaler := 0, cyc := 0,
      status := 0x08 ||| (s.status &&& 0x07),
      rbLast := t.rbLast, resets := t.resets })

/-- The values a power-on reset during a run gives, whatever the free values are: those rule R58
prints; the program, the data EEPROM, the parameters and the pins are untouched (R58, R252, R254). The
circular pointer is 0 by decision D8 (log entry 10). -/
def Obligations.PowerOnResetValues : Prop :=
  ∀ s : State,
    let t := s.resetBy .powerOn
    t.pc = 0x0000 ∧ t.status &&& 0xF8 = 0x18 ∧ t.optionReg = 0xFF ∧ t.intcon &&& 0xFE = 0x00
    ∧ t.pclath = 0 ∧ t.trisA = 0x1F ∧ t.trisB = 0xFF ∧ t.eecon1 &&& 0x17 = 0 ∧ t.sp = 0
    ∧ t.stackPtr = 0 ∧ t.wdt = 0 ∧ t.prescaler = 0 ∧ t.asleep = false ∧ t.t0Inhibit = 0
    ∧ t.unwritten = Config.unknownLocs
    ∧ t.prog = s.prog ∧ t.eeprom = s.eeprom ∧ t.cfg = s.cfg
    ∧ t.pinA = s.pinA ∧ t.pinB = s.pinB ∧ t.pinMclr = s.pinMclr

/-- The values rule R58 prints, in the state the model starts from, and the defaults rule R7 gives the
parameters. The circular pointer is 0 by decision D8 (log entry 10). -/
def Obligations.ResetStateValues : Prop :=
  State.reset.pc = 0x0000 ∧ State.reset.status &&& 0xF8 = 0x18 ∧ State.reset.optionReg = 0xFF
  ∧ State.reset.intcon &&& 0xFE = 0x00 ∧ State.reset.pclath = 0 ∧ State.reset.trisA = 0x1F
  ∧ State.reset.trisB = 0xFF ∧ State.reset.eecon1 &&& 0x17 = 0 ∧ State.reset.sp = 0
  ∧ State.reset.stackPtr = 0
  ∧ State.reset.wdt = 0 ∧ State.reset.prescaler = 0 ∧ State.reset.asleep = false
  ∧ State.reset.t0Inhibit = 0 ∧ State.reset.gie = false ∧ State.reset.rp0 = false
  ∧ (State.reset.cfg.stackPolicy = .fault ∧ State.reset.cfg.uninitPolicy = .draw
    ∧ State.reset.cfg.progWords = 1024 ∧ State.reset.cfg.wdtEnabled = false
    ∧ State.reset.cfg.wdtPeriodMicros = 18000 ∧ State.reset.cfg.eepromBytes = 64
    ∧ State.reset.cfg.fOsc = none)

/-- A run that has ended stays where it is when nothing comes from outside: no number of further
steps leaves the loop or the sleep, and none of them faults (R257). -/
def Obligations.EndedRunStays : Prop :=
  ∀ (n : Nat) (s : State), s.quiet = true → s.runEnded = true →
    ∃ t, core.run n s = .next t ∧ t.pc = s.pc ∧ t.runEnded = true ∧ t.quiet = true
      ∧ t.w = s.w ∧ t.ram = s.ram ∧ t.stack = s.stack ∧ t.sp = s.sp

/-! ### Invariant -/

/-- The invariant holds at reset. The canonical forms are the model's choice (log entry 5), and the
program image is empty by log entry 2. -/
def Obligations.InvariantAtReset : Prop := State.reset.Inv

/-- Every step keeps the invariant: the program image and the byte memories keep their canonical form
within their addresses, a sleeping core shows `/TO` = 1 and `/PD` = 0, and EECON1 holds nothing but
WRERR (R51, R56, R72, R183, R228, R230). The canonical forms are the model's choice (log entry 5). -/
def Obligations.StepKeepsInvariant : Prop :=
  ∀ s t : State, s.Inv → step s = .next t → t.Inv

/-! ### Encoding -/

/-- Decoding the canonical word of an instruction gives the instruction back, for every operand
(R119). -/
def Obligations.DecodeOfEncode : Prop := ∀ i : Instr, decode (encode i) = .ok i

/-- The canonical word of a decoded word is the word with its `x` bits cleared; so encoding gives the
word back exactly when its `x` bits are 0 (R119, R105). -/
def Obligations.EncodeOfDecode : Prop :=
  ∀ (w : InstrWord) (i : Instr), decode w = .ok i →
    encode i = w &&& ~~~xBits i ∧ (encode i = w ↔ w &&& xBits i = 0)

/-- The opcode table: no two rows share a word, exactly the 376 words rule R114 lists are unassigned,
and the opcode map of rules R109 to R113 reads every word as the table does. -/
def Obligations.OpcodeTableIsExact : Prop :=
  (∀ r ∈ opRows, ∀ q ∈ opRows, ∀ w : InstrWord,
    r.matches w = true → q.matches w = true → r.mnemonic = q.mnemonic)
  ∧ opRows.length = 35
  ∧ (∀ w : InstrWord, decode w = .error (.illegal w) ↔
      (0x0001 ≤ w.toNat ∧ w.toNat ≤ 0x0007) ∨ (0x000A ≤ w.toNat ∧ w.toNat ≤ 0x001F)
      ∨ (0x0021 ≤ w.toNat ∧ w.toNat ≤ 0x003F) ∨ (0x0041 ≤ w.toNat ∧ w.toNat ≤ 0x005F)
      ∨ w.toNat = 0x0061 ∨ w.toNat = 0x0062 ∨ (0x0065 ≤ w.toNat ∧ w.toNat ≤ 0x007F)
      ∨ (0x3B00 ≤ w.toNat ∧ w.toNat ≤ 0x3BFF))
  ∧ (∀ w : InstrWord, decodeByMap w = (decode w).toOption)

/-- Words written out from the encodings decode to their instructions, one of each format and of each
family. -/
def Obligations.DecodeExamples : Prop :=
  decode 0b00011110001100 = .ok (.addwf .f 0x0C)
  ∧ decode 0b00000110001101 = .ok (.clrf 0x0D)
  ∧ decode 0b01011010000011 = .ok (.bsf 5 0x03)
  ∧ decode 0b11000001011010 = .ok (.movlw 0x5A)
  ∧ decode 0b10100000000111 = .ok (.goto 0x007)
  ∧ decode 0b10000000000101 = .ok (.call 0x005)
  ∧ decode 0b00000000001001 = .ok .retfie
  ∧ decode 0b00000001100011 = .ok .sleep

/-! ### Unknown locations -/

/-- Under UNINIT_POLICY = fault an instruction reports a read of an unwritten location exactly when
its effect depends on one; under draw it never does (R59). That an indirect operand depends on FSR, and
on which latch BCF, BSF, BTFSC and BTFSS depend on PORTA and PORTB, are the model's readings (log
entries 12 and 15). -/
def Obligations.UnwrittenReadIsReported : Prop :=
  ∀ (i : Instr) (s : State),
    (s.cfg.uninitPolicy = .fault →
      ((∃ l, exec i s = .fault (.uninitializedRead l)) ↔ ∃ l ∈ needsOf i s, l ∈ s.unwritten))
    ∧ (s.cfg.uninitPolicy = .draw → ∀ l, exec i s ≠ .fault (.uninitializedRead l))

/-- UNINIT_POLICY = fault only adds faults: over any number of steps, from any state, either a read of
an unwritten location is reported, or the run is the run under draw, the marks apart (R59). -/
def Obligations.MarksOnlyAddFaults : Prop :=
  ∀ (n : Nat) (s : State),
    (∃ l, core.run n s = .fault (Fault.uninitializedRead l))
    ∨ onNext State.withoutMarks (core.run n s) = onNext State.withoutMarks (core.run n s.withoutMarks)
end

