-- ==== Sys2Proof/Laws/Decode.lean ====
section
/-! SUPPORT. What the search through the opcode table finds: the one row whose match bits a word has. -/

namespace Sys2Proof

/-- Two rows of the table differ in a bit both fix. -/
theorem opRows_differ :
    opRows.Pairwise (fun r s => r.mask &&& s.mask &&& (r.pattern ^^^ s.pattern) ≠ 0) := by decide

/-- A word with the match bits of two rows has no bit in which the two differ. -/
theorem OpRow.matches_agree {r s : OpRow} {w : InstrWord} (hr : r.matches w = true)
    (hs : s.matches w = true) : r.mask &&& s.mask &&& (r.pattern ^^^ s.pattern) = 0 := by
  have hr : w &&& r.mask = r.pattern := by simpa [OpRow.matches] using hr
  have hs : w &&& s.mask = s.pattern := by simpa [OpRow.matches] using hs
  rw [← hr, ← hs]
  ext i hi
  simp only [BitVec.getElem_and, BitVec.getElem_xor]
  cases w[i] <;> cases r.mask[i] <;> cases s.mask[i] <;> simp

/-- In a table whose rows differ pairwise, the search finds the row a word belongs to. -/
theorem find_row {l : List OpRow} {r : OpRow} {w : InstrWord}
    (hl : l.Pairwise (fun r s => r.mask &&& s.mask &&& (r.pattern ^^^ s.pattern) ≠ 0))
    (hr : r ∈ l) (hw : r.matches w = true) : l.find? (fun r => r.matches w) = some r := by
  induction l with
  | nil => cases hr
  | cons s l ih =>
    obtain ⟨hs, hl⟩ := List.pairwise_cons.1 hl
    rcases List.mem_cons.1 hr with rfl | hr
    · simp [List.find?, hw]
    · have : s.matches w = false := by
        by_contra h
        exact hs r hr (OpRow.matches_agree (by simpa using h) hw)
      simp [List.find?, this, ih hl hr]

/-- A word with the match bits of a row decodes to the row's instruction (R116). -/
theorem decode_of_row {r : OpRow} {w : InstrWord} (hr : r ∈ opRows) (hw : w &&& r.mask = r.pattern) :
    decode w = .ok (r.build w) := by
  unfold decode
  rw [find_row opRows_differ hr (by simp [OpRow.matches, hw])]

/-- A decoded word has the match bits of some row, and is the row's instruction (R116). -/
theorem row_of_decode {w : InstrWord} {i : Instr} (h : decode w = .ok i) :
    ∃ r ∈ opRows, w &&& r.mask = r.pattern ∧ r.build w = i := by
  unfold decode at h
  split at h
  · rename_i r hr
    have hm := List.find?_some hr
    exact ⟨r, List.mem_of_find?_eq_some hr, by simpa [OpRow.matches] using hm, by simpa using h⟩
  · simp at h

/-- A word that decodes to nothing has the match bits of no row (R115). -/
theorem no_row_of_decode_error {w : InstrWord} {e : DecodeError} (h : decode w = .error e) :
    e = .illegal w ∧ ∀ r ∈ opRows, w &&& r.mask ≠ r.pattern := by
  unfold decode at h
  split at h
  · simp at h
  · rename_i hn
    refine ⟨by simpa using h.symm, fun r hr he => ?_⟩
    simpa [OpRow.matches, he] using List.find?_eq_none.1 hn r hr

end Sys2Proof
end

