-- ==== Sys2Proof/Laws/State.lean ====
section
/-! SUPPORT. One lemma for each field under each named update of the state, tagged `simp`, so that no
later proof unfolds a record update. -/

namespace Sys2Proof.Machine

/-! ### `State.advance` changes the pc and the cycle count -/

@[simp] theorem State.advance_cfg (s : State) : (s.advance).cfg = s.cfg := rfl
@[simp] theorem State.advance_prog (s : State) : (s.advance).prog = s.prog := rfl
@[simp] theorem State.advance_w (s : State) : (s.advance).w = s.w := rfl
@[simp] theorem State.advance_pclath (s : State) : (s.advance).pclath = s.pclath := rfl
@[simp] theorem State.advance_stack (s : State) : (s.advance).stack = s.stack := rfl
@[simp] theorem State.advance_sp (s : State) : (s.advance).sp = s.sp := rfl
@[simp] theorem State.advance_stackPtr (s : State) : (s.advance).stackPtr = s.stackPtr := rfl
@[simp] theorem State.advance_status (s : State) : (s.advance).status = s.status := rfl
@[simp] theorem State.advance_fsr (s : State) : (s.advance).fsr = s.fsr := rfl
@[simp] theorem State.advance_tmr0 (s : State) : (s.advance).tmr0 = s.tmr0 := rfl
@[simp] theorem State.advance_optionReg (s : State) : (s.advance).optionReg = s.optionReg := rfl
@[simp] theorem State.advance_intcon (s : State) : (s.advance).intcon = s.intcon := rfl
@[simp] theorem State.advance_latA (s : State) : (s.advance).latA = s.latA := rfl
@[simp] theorem State.advance_trisA (s : State) : (s.advance).trisA = s.trisA := rfl
@[simp] theorem State.advance_latB (s : State) : (s.advance).latB = s.latB := rfl
@[simp] theorem State.advance_trisB (s : State) : (s.advance).trisB = s.trisB := rfl
@[simp] theorem State.advance_eedata (s : State) : (s.advance).eedata = s.eedata := rfl
@[simp] theorem State.advance_eeadr (s : State) : (s.advance).eeadr = s.eeadr := rfl
@[simp] theorem State.advance_eecon1 (s : State) : (s.advance).eecon1 = s.eecon1 := rfl
@[simp] theorem State.advance_ram (s : State) : (s.advance).ram = s.ram := rfl
@[simp] theorem State.advance_eeprom (s : State) : (s.advance).eeprom = s.eeprom := rfl
@[simp] theorem State.advance_wdt (s : State) : (s.advance).wdt = s.wdt := rfl
@[simp] theorem State.advance_prescaler (s : State) : (s.advance).prescaler = s.prescaler := rfl
@[simp] theorem State.advance_asleep (s : State) : (s.advance).asleep = s.asleep := rfl
@[simp] theorem State.advance_t0Inhibit (s : State) : (s.advance).t0Inhibit = s.t0Inhibit := rfl
@[simp] theorem State.advance_rbLast (s : State) : (s.advance).rbLast = s.rbLast := rfl
@[simp] theorem State.advance_pinA (s : State) : (s.advance).pinA = s.pinA := rfl
@[simp] theorem State.advance_pinB (s : State) : (s.advance).pinB = s.pinB := rfl
@[simp] theorem State.advance_pinMclr (s : State) : (s.advance).pinMclr = s.pinMclr := rfl
@[simp] theorem State.advance_env (s : State) : (s.advance).env = s.env := rfl
@[simp] theorem State.advance_unwritten (s : State) : (s.advance).unwritten = s.unwritten := rfl
@[simp] theorem State.advance_resets (s : State) : (s.advance).resets = s.resets := rfl

@[simp] theorem State.advance_pc (s : State) : (s.advance).pc = s.pc + 1 := rfl
@[simp] theorem State.advance_cyc (s : State) : (s.advance).cyc = 1 := rfl

/-! ### `State.jump` changes the pc and the cycle count -/

@[simp] theorem State.jump_cfg (s : State) (t : ProgAddr) : (s.jump t).cfg = s.cfg := rfl
@[simp] theorem State.jump_prog (s : State) (t : ProgAddr) : (s.jump t).prog = s.prog := rfl
@[simp] theorem State.jump_w (s : State) (t : ProgAddr) : (s.jump t).w = s.w := rfl
@[simp] theorem State.jump_pclath (s : State) (t : ProgAddr) : (s.jump t).pclath = s.pclath := rfl
@[simp] theorem State.jump_stack (s : State) (t : ProgAddr) : (s.jump t).stack = s.stack := rfl
@[simp] theorem State.jump_sp (s : State) (t : ProgAddr) : (s.jump t).sp = s.sp := rfl
@[simp] theorem State.jump_stackPtr (s : State) (t : ProgAddr) : (s.jump t).stackPtr = s.stackPtr := rfl
@[simp] theorem State.jump_status (s : State) (t : ProgAddr) : (s.jump t).status = s.status := rfl
@[simp] theorem State.jump_fsr (s : State) (t : ProgAddr) : (s.jump t).fsr = s.fsr := rfl
@[simp] theorem State.jump_tmr0 (s : State) (t : ProgAddr) : (s.jump t).tmr0 = s.tmr0 := rfl
@[simp] theorem State.jump_optionReg (s : State) (t : ProgAddr) : (s.jump t).optionReg = s.optionReg := rfl
@[simp] theorem State.jump_intcon (s : State) (t : ProgAddr) : (s.jump t).intcon = s.intcon := rfl
@[simp] theorem State.jump_latA (s : State) (t : ProgAddr) : (s.jump t).latA = s.latA := rfl
@[simp] theorem State.jump_trisA (s : State) (t : ProgAddr) : (s.jump t).trisA = s.trisA := rfl
@[simp] theorem State.jump_latB (s : State) (t : ProgAddr) : (s.jump t).latB = s.latB := rfl
@[simp] theorem State.jump_trisB (s : State) (t : ProgAddr) : (s.jump t).trisB = s.trisB := rfl
@[simp] theorem State.jump_eedata (s : State) (t : ProgAddr) : (s.jump t).eedata = s.eedata := rfl
@[simp] theorem State.jump_eeadr (s : State) (t : ProgAddr) : (s.jump t).eeadr = s.eeadr := rfl
@[simp] theorem State.jump_eecon1 (s : State) (t : ProgAddr) : (s.jump t).eecon1 = s.eecon1 := rfl
@[simp] theorem State.jump_ram (s : State) (t : ProgAddr) : (s.jump t).ram = s.ram := rfl
@[simp] theorem State.jump_eeprom (s : State) (t : ProgAddr) : (s.jump t).eeprom = s.eeprom := rfl
@[simp] theorem State.jump_wdt (s : State) (t : ProgAddr) : (s.jump t).wdt = s.wdt := rfl
@[simp] theorem State.jump_prescaler (s : State) (t : ProgAddr) : (s.jump t).prescaler = s.prescaler := rfl
@[simp] theorem State.jump_asleep (s : State) (t : ProgAddr) : (s.jump t).asleep = s.asleep := rfl
@[simp] theorem State.jump_t0Inhibit (s : State) (t : ProgAddr) : (s.jump t).t0Inhibit = s.t0Inhibit := rfl
@[simp] theorem State.jump_rbLast (s : State) (t : ProgAddr) : (s.jump t).rbLast = s.rbLast := rfl
@[simp] theorem State.jump_pinA (s : State) (t : ProgAddr) : (s.jump t).pinA = s.pinA := rfl
@[simp] theorem State.jump_pinB (s : State) (t : ProgAddr) : (s.jump t).pinB = s.pinB := rfl
@[simp] theorem State.jump_pinMclr (s : State) (t : ProgAddr) : (s.jump t).pinMclr = s.pinMclr := rfl
@[simp] theorem State.jump_env (s : State) (t : ProgAddr) : (s.jump t).env = s.env := rfl
@[simp] theorem State.jump_unwritten (s : State) (t : ProgAddr) : (s.jump t).unwritten = s.unwritten := rfl
@[simp] theorem State.jump_resets (s : State) (t : ProgAddr) : (s.jump t).resets = s.resets := rfl

@[simp] theorem State.jump_pc (s : State) (t : ProgAddr) : (s.jump t).pc = t := rfl
@[simp] theorem State.jump_cyc (s : State) (t : ProgAddr) : (s.jump t).cyc = 2 := rfl

/-! ### `State.markWritten` changes the marks -/

@[simp] theorem State.markWritten_cfg (s : State) (ls : List Config.UnknownLoc) : (s.markWritten ls).cfg = s.cfg := rfl
@[simp] theorem State.markWritten_prog (s : State) (ls : List Config.UnknownLoc) : (s.markWritten ls).prog = s.prog := rfl
@[simp] theorem State.markWritten_w (s : State) (ls : List Config.UnknownLoc) : (s.markWritten ls).w = s.w := rfl
@[simp] theorem State.markWritten_pc (s : State) (ls : List Config.UnknownLoc) : (s.markWritten ls).pc = s.pc := rfl
@[simp] theorem State.markWritten_pclath (s : State) (ls : List Config.UnknownLoc) : (s.markWritten ls).pclath = s.pclath := rfl
@[simp] theorem State.markWritten_stack (s : State) (ls : List Config.UnknownLoc) : (s.markWritten ls).stack = s.stack := rfl
@[simp] theorem State.markWritten_sp (s : State) (ls : List Config.UnknownLoc) : (s.markWritten ls).sp = s.sp := rfl
@[simp] theorem State.markWritten_stackPtr (s : State) (ls : List Config.UnknownLoc) : (s.markWritten ls).stackPtr = s.stackPtr := rfl
@[simp] theorem State.markWritten_status (s : State) (ls : List Config.UnknownLoc) : (s.markWritten ls).status = s.status := rfl
@[simp] theorem State.markWritten_fsr (s : State) (ls : List Config.UnknownLoc) : (s.markWritten ls).fsr = s.fsr := rfl
@[simp] theorem State.markWritten_tmr0 (s : State) (ls : List Config.UnknownLoc) : (s.markWritten ls).tmr0 = s.tmr0 := rfl
@[simp] theorem State.markWritten_optionReg (s : State) (ls : List Config.UnknownLoc) : (s.markWritten ls).optionReg = s.optionReg := rfl
@[simp] theorem State.markWritten_intcon (s : State) (ls : List Config.UnknownLoc) : (s.markWritten ls).intcon = s.intcon := rfl
@[simp] theorem State.markWritten_latA (s : State) (ls : List Config.UnknownLoc) : (s.markWritten ls).latA = s.latA := rfl
@[simp] theorem State.markWritten_trisA (s : State) (ls : List Config.UnknownLoc) : (s.markWritten ls).trisA = s.trisA := rfl
@[simp] theorem State.markWritten_latB (s : State) (ls : List Config.UnknownLoc) : (s.markWritten ls).latB = s.latB := rfl
@[simp] theorem State.markWritten_trisB (s : State) (ls : List Config.UnknownLoc) : (s.markWritten ls).trisB = s.trisB := rfl
@[simp] theorem State.markWritten_eedata (s : State) (ls : List Config.UnknownLoc) : (s.markWritten ls).eedata = s.eedata := rfl
@[simp] theorem State.markWritten_eeadr (s : State) (ls : List Config.UnknownLoc) : (s.markWritten ls).eeadr = s.eeadr := rfl
@[simp] theorem State.markWritten_eecon1 (s : State) (ls : List Config.UnknownLoc) : (s.markWritten ls).eecon1 = s.eecon1 := rfl
@[simp] theorem State.markWritten_ram (s : State) (ls : List Config.UnknownLoc) : (s.markWritten ls).ram = s.ram := rfl
@[simp] theorem State.markWritten_eeprom (s : State) (ls : List Config.UnknownLoc) : (s.markWritten ls).eeprom = s.eeprom := rfl
@[simp] theorem State.markWritten_wdt (s : State) (ls : List Config.UnknownLoc) : (s.markWritten ls).wdt = s.wdt := rfl
@[simp] theorem State.markWritten_prescaler (s : State) (ls : List Config.UnknownLoc) : (s.markWritten ls).prescaler = s.prescaler := rfl
@[simp] theorem State.markWritten_asleep (s : State) (ls : List Config.UnknownLoc) : (s.markWritten ls).asleep = s.asleep := rfl
@[simp] theorem State.markWritten_t0Inhibit (s : State) (ls : List Config.UnknownLoc) : (s.markWritten ls).t0Inhibit = s.t0Inhibit := rfl
@[simp] theorem State.markWritten_rbLast (s : State) (ls : List Config.UnknownLoc) : (s.markWritten ls).rbLast = s.rbLast := rfl
@[simp] theorem State.markWritten_pinA (s : State) (ls : List Config.UnknownLoc) : (s.markWritten ls).pinA = s.pinA := rfl
@[simp] theorem State.markWritten_pinB (s : State) (ls : List Config.UnknownLoc) : (s.markWritten ls).pinB = s.pinB := rfl
@[simp] theorem State.markWritten_pinMclr (s : State) (ls : List Config.UnknownLoc) : (s.markWritten ls).pinMclr = s.pinMclr := rfl
@[simp] theorem State.markWritten_env (s : State) (ls : List Config.UnknownLoc) : (s.markWritten ls).env = s.env := rfl
@[simp] theorem State.markWritten_resets (s : State) (ls : List Config.UnknownLoc) : (s.markWritten ls).resets = s.resets := rfl
@[simp] theorem State.markWritten_cyc (s : State) (ls : List Config.UnknownLoc) : (s.markWritten ls).cyc = s.cyc := rfl

@[simp] theorem State.markWritten_unwritten (s : State) (ls : List Config.UnknownLoc) : (s.markWritten ls).unwritten = s.marksAfter ls := rfl

/-! ### `State.setW` changes W and its mark -/

@[simp] theorem State.setW_cfg (s : State) (v : Byte) : (s.setW v).cfg = s.cfg := rfl
@[simp] theorem State.setW_prog (s : State) (v : Byte) : (s.setW v).prog = s.prog := rfl
@[simp] theorem State.setW_pc (s : State) (v : Byte) : (s.setW v).pc = s.pc := rfl
@[simp] theorem State.setW_pclath (s : State) (v : Byte) : (s.setW v).pclath = s.pclath := rfl
@[simp] theorem State.setW_stack (s : State) (v : Byte) : (s.setW v).stack = s.stack := rfl
@[simp] theorem State.setW_sp (s : State) (v : Byte) : (s.setW v).sp = s.sp := rfl
@[simp] theorem State.setW_stackPtr (s : State) (v : Byte) : (s.setW v).stackPtr = s.stackPtr := rfl
@[simp] theorem State.setW_status (s : State) (v : Byte) : (s.setW v).status = s.status := rfl
@[simp] theorem State.setW_fsr (s : State) (v : Byte) : (s.setW v).fsr = s.fsr := rfl
@[simp] theorem State.setW_tmr0 (s : State) (v : Byte) : (s.setW v).tmr0 = s.tmr0 := rfl
@[simp] theorem State.setW_optionReg (s : State) (v : Byte) : (s.setW v).optionReg = s.optionReg := rfl
@[simp] theorem State.setW_intcon (s : State) (v : Byte) : (s.setW v).intcon = s.intcon := rfl
@[simp] theorem State.setW_latA (s : State) (v : Byte) : (s.setW v).latA = s.latA := rfl
@[simp] theorem State.setW_trisA (s : State) (v : Byte) : (s.setW v).trisA = s.trisA := rfl
@[simp] theorem State.setW_latB (s : State) (v : Byte) : (s.setW v).latB = s.latB := rfl
@[simp] theorem State.setW_trisB (s : State) (v : Byte) : (s.setW v).trisB = s.trisB := rfl
@[simp] theorem State.setW_eedata (s : State) (v : Byte) : (s.setW v).eedata = s.eedata := rfl
@[simp] theorem State.setW_eeadr (s : State) (v : Byte) : (s.setW v).eeadr = s.eeadr := rfl
@[simp] theorem State.setW_eecon1 (s : State) (v : Byte) : (s.setW v).eecon1 = s.eecon1 := rfl
@[simp] theorem State.setW_ram (s : State) (v : Byte) : (s.setW v).ram = s.ram := rfl
@[simp] theorem State.setW_eeprom (s : State) (v : Byte) : (s.setW v).eeprom = s.eeprom := rfl
@[simp] theorem State.setW_wdt (s : State) (v : Byte) : (s.setW v).wdt = s.wdt := rfl
@[simp] theorem State.setW_prescaler (s : State) (v : Byte) : (s.setW v).prescaler = s.prescaler := rfl
@[simp] theorem State.setW_asleep (s : State) (v : Byte) : (s.setW v).asleep = s.asleep := rfl
@[simp] theorem State.setW_t0Inhibit (s : State) (v : Byte) : (s.setW v).t0Inhibit = s.t0Inhibit := rfl
@[simp] theorem State.setW_rbLast (s : State) (v : Byte) : (s.setW v).rbLast = s.rbLast := rfl
@[simp] theorem State.setW_pinA (s : State) (v : Byte) : (s.setW v).pinA = s.pinA := rfl
@[simp] theorem State.setW_pinB (s : State) (v : Byte) : (s.setW v).pinB = s.pinB := rfl
@[simp] theorem State.setW_pinMclr (s : State) (v : Byte) : (s.setW v).pinMclr = s.pinMclr := rfl
@[simp] theorem State.setW_env (s : State) (v : Byte) : (s.setW v).env = s.env := rfl
@[simp] theorem State.setW_resets (s : State) (v : Byte) : (s.setW v).resets = s.resets := rfl
@[simp] theorem State.setW_cyc (s : State) (v : Byte) : (s.setW v).cyc = s.cyc := rfl

@[simp] theorem State.setW_w (s : State) (v : Byte) : (s.setW v).w = v := rfl
@[simp] theorem State.setW_unwritten (s : State) (v : Byte) : (s.setW v).unwritten = s.marksAfter [.w] := rfl

/-! ### `State.applyFlags` changes the flags and their marks -/

@[simp] theorem State.applyFlags_cfg (s : State) (u : FlagUpdate) : (s.applyFlags u).cfg = s.cfg := rfl
@[simp] theorem State.applyFlags_prog (s : State) (u : FlagUpdate) : (s.applyFlags u).prog = s.prog := rfl
@[simp] theorem State.applyFlags_w (s : State) (u : FlagUpdate) : (s.applyFlags u).w = s.w := rfl
@[simp] theorem State.applyFlags_pc (s : State) (u : FlagUpdate) : (s.applyFlags u).pc = s.pc := rfl
@[simp] theorem State.applyFlags_pclath (s : State) (u : FlagUpdate) : (s.applyFlags u).pclath = s.pclath := rfl
@[simp] theorem State.applyFlags_stack (s : State) (u : FlagUpdate) : (s.applyFlags u).stack = s.stack := rfl
@[simp] theorem State.applyFlags_sp (s : State) (u : FlagUpdate) : (s.applyFlags u).sp = s.sp := rfl
@[simp] theorem State.applyFlags_stackPtr (s : State) (u : FlagUpdate) : (s.applyFlags u).stackPtr = s.stackPtr := rfl
@[simp] theorem State.applyFlags_fsr (s : State) (u : FlagUpdate) : (s.applyFlags u).fsr = s.fsr := rfl
@[simp] theorem State.applyFlags_tmr0 (s : State) (u : FlagUpdate) : (s.applyFlags u).tmr0 = s.tmr0 := rfl
@[simp] theorem State.applyFlags_optionReg (s : State) (u : FlagUpdate) : (s.applyFlags u).optionReg = s.optionReg := rfl
@[simp] theorem State.applyFlags_intcon (s : State) (u : FlagUpdate) : (s.applyFlags u).intcon = s.intcon := rfl
@[simp] theorem State.applyFlags_latA (s : State) (u : FlagUpdate) : (s.applyFlags u).latA = s.latA := rfl
@[simp] theorem State.applyFlags_trisA (s : State) (u : FlagUpdate) : (s.applyFlags u).trisA = s.trisA := rfl
@[simp] theorem State.applyFlags_latB (s : State) (u : FlagUpdate) : (s.applyFlags u).latB = s.latB := rfl
@[simp] theorem State.applyFlags_trisB (s : State) (u : FlagUpdate) : (s.applyFlags u).trisB = s.trisB := rfl
@[simp] theorem State.applyFlags_eedata (s : State) (u : FlagUpdate) : (s.applyFlags u).eedata = s.eedata := rfl
@[simp] theorem State.applyFlags_eeadr (s : State) (u : FlagUpdate) : (s.applyFlags u).eeadr = s.eeadr := rfl
@[simp] theorem State.applyFlags_eecon1 (s : State) (u : FlagUpdate) : (s.applyFlags u).eecon1 = s.eecon1 := rfl
@[simp] theorem State.applyFlags_ram (s : State) (u : FlagUpdate) : (s.applyFlags u).ram = s.ram := rfl
@[simp] theorem State.applyFlags_eeprom (s : State) (u : FlagUpdate) : (s.applyFlags u).eeprom = s.eeprom := rfl
@[simp] theorem State.applyFlags_wdt (s : State) (u : FlagUpdate) : (s.applyFlags u).wdt = s.wdt := rfl
@[simp] theorem State.applyFlags_prescaler (s : State) (u : FlagUpdate) : (s.applyFlags u).prescaler = s.prescaler := rfl
@[simp] theorem State.applyFlags_asleep (s : State) (u : FlagUpdate) : (s.applyFlags u).asleep = s.asleep := rfl
@[simp] theorem State.applyFlags_t0Inhibit (s : State) (u : FlagUpdate) : (s.applyFlags u).t0Inhibit = s.t0Inhibit := rfl
@[simp] theorem State.applyFlags_rbLast (s : State) (u : FlagUpdate) : (s.applyFlags u).rbLast = s.rbLast := rfl
@[simp] theorem State.applyFlags_pinA (s : State) (u : FlagUpdate) : (s.applyFlags u).pinA = s.pinA := rfl
@[simp] theorem State.applyFlags_pinB (s : State) (u : FlagUpdate) : (s.applyFlags u).pinB = s.pinB := rfl
@[simp] theorem State.applyFlags_pinMclr (s : State) (u : FlagUpdate) : (s.applyFlags u).pinMclr = s.pinMclr := rfl
@[simp] theorem State.applyFlags_env (s : State) (u : FlagUpdate) : (s.applyFlags u).env = s.env := rfl
@[simp] theorem State.applyFlags_resets (s : State) (u : FlagUpdate) : (s.applyFlags u).resets = s.resets := rfl
@[simp] theorem State.applyFlags_cyc (s : State) (u : FlagUpdate) : (s.applyFlags u).cyc = s.cyc := rfl

@[simp] theorem State.applyFlags_status (s : State) (u : FlagUpdate) : (s.applyFlags u).status = u.apply s.status := rfl
@[simp] theorem State.applyFlags_unwritten (s : State) (u : FlagUpdate) : (s.applyFlags u).unwritten = s.marksAfter u.locs := rfl

/-! ### `State.clearWatchdog` changes the watchdog and the prescaler -/

@[simp] theorem State.clearWatchdog_cfg (s : State) : (s.clearWatchdog).cfg = s.cfg := rfl
@[simp] theorem State.clearWatchdog_prog (s : State) : (s.clearWatchdog).prog = s.prog := rfl
@[simp] theorem State.clearWatchdog_w (s : State) : (s.clearWatchdog).w = s.w := rfl
@[simp] theorem State.clearWatchdog_pc (s : State) : (s.clearWatchdog).pc = s.pc := rfl
@[simp] theorem State.clearWatchdog_pclath (s : State) : (s.clearWatchdog).pclath = s.pclath := rfl
@[simp] theorem State.clearWatchdog_stack (s : State) : (s.clearWatchdog).stack = s.stack := rfl
@[simp] theorem State.clearWatchdog_sp (s : State) : (s.clearWatchdog).sp = s.sp := rfl
@[simp] theorem State.clearWatchdog_stackPtr (s : State) : (s.clearWatchdog).stackPtr = s.stackPtr := rfl
@[simp] theorem State.clearWatchdog_status (s : State) : (s.clearWatchdog).status = s.status := rfl
@[simp] theorem State.clearWatchdog_fsr (s : State) : (s.clearWatchdog).fsr = s.fsr := rfl
@[simp] theorem State.clearWatchdog_tmr0 (s : State) : (s.clearWatchdog).tmr0 = s.tmr0 := rfl
@[simp] theorem State.clearWatchdog_optionReg (s : State) : (s.clearWatchdog).optionReg = s.optionReg := rfl
@[simp] theorem State.clearWatchdog_intcon (s : State) : (s.clearWatchdog).intcon = s.intcon := rfl
@[simp] theorem State.clearWatchdog_latA (s : State) : (s.clearWatchdog).latA = s.latA := rfl
@[simp] theorem State.clearWatchdog_trisA (s : State) : (s.clearWatchdog).trisA = s.trisA := rfl
@[simp] theorem State.clearWatchdog_latB (s : State) : (s.clearWatchdog).latB = s.latB := rfl
@[simp] theorem State.clearWatchdog_trisB (s : State) : (s.clearWatchdog).trisB = s.trisB := rfl
@[simp] theorem State.clearWatchdog_eedata (s : State) : (s.clearWatchdog).eedata = s.eedata := rfl
@[simp] theorem State.clearWatchdog_eeadr (s : State) : (s.clearWatchdog).eeadr = s.eeadr := rfl
@[simp] theorem State.clearWatchdog_eecon1 (s : State) : (s.clearWatchdog).eecon1 = s.eecon1 := rfl
@[simp] theorem State.clearWatchdog_ram (s : State) : (s.clearWatchdog).ram = s.ram := rfl
@[simp] theorem State.clearWatchdog_eeprom (s : State) : (s.clearWatchdog).eeprom = s.eeprom := rfl
@[simp] theorem State.clearWatchdog_asleep (s : State) : (s.clearWatchdog).asleep = s.asleep := rfl
@[simp] theorem State.clearWatchdog_t0Inhibit (s : State) : (s.clearWatchdog).t0Inhibit = s.t0Inhibit := rfl
@[simp] theorem State.clearWatchdog_rbLast (s : State) : (s.clearWatchdog).rbLast = s.rbLast := rfl
@[simp] theorem State.clearWatchdog_pinA (s : State) : (s.clearWatchdog).pinA = s.pinA := rfl
@[simp] theorem State.clearWatchdog_pinB (s : State) : (s.clearWatchdog).pinB = s.pinB := rfl
@[simp] theorem State.clearWatchdog_pinMclr (s : State) : (s.clearWatchdog).pinMclr = s.pinMclr := rfl
@[simp] theorem State.clearWatchdog_env (s : State) : (s.clearWatchdog).env = s.env := rfl
@[simp] theorem State.clearWatchdog_unwritten (s : State) : (s.clearWatchdog).unwritten = s.unwritten := rfl
@[simp] theorem State.clearWatchdog_resets (s : State) : (s.clearWatchdog).resets = s.resets := rfl
@[simp] theorem State.clearWatchdog_cyc (s : State) : (s.clearWatchdog).cyc = s.cyc := rfl

@[simp] theorem State.clearWatchdog_wdt (s : State) : (s.clearWatchdog).wdt = 0 := rfl

/-! ### `State.skipIf` changes the pc and the cycle count -/

@[simp] theorem State.skipIf_cfg (s : State) (c : Bool) : (s.skipIf c).cfg = s.cfg := by cases c <;> rfl
@[simp] theorem State.skipIf_prog (s : State) (c : Bool) : (s.skipIf c).prog = s.prog := by cases c <;> rfl
@[simp] theorem State.skipIf_w (s : State) (c : Bool) : (s.skipIf c).w = s.w := by cases c <;> rfl
@[simp] theorem State.skipIf_pclath (s : State) (c : Bool) : (s.skipIf c).pclath = s.pclath := by cases c <;> rfl
@[simp] theorem State.skipIf_stack (s : State) (c : Bool) : (s.skipIf c).stack = s.stack := by cases c <;> rfl
@[simp] theorem State.skipIf_sp (s : State) (c : Bool) : (s.skipIf c).sp = s.sp := by cases c <;> rfl
@[simp] theorem State.skipIf_stackPtr (s : State) (c : Bool) : (s.skipIf c).stackPtr = s.stackPtr := by cases c <;> rfl
@[simp] theorem State.skipIf_status (s : State) (c : Bool) : (s.skipIf c).status = s.status := by cases c <;> rfl
@[simp] theorem State.skipIf_fsr (s : State) (c : Bool) : (s.skipIf c).fsr = s.fsr := by cases c <;> rfl
@[simp] theorem State.skipIf_tmr0 (s : State) (c : Bool) : (s.skipIf c).tmr0 = s.tmr0 := by cases c <;> rfl
@[simp] theorem State.skipIf_optionReg (s : State) (c : Bool) : (s.skipIf c).optionReg = s.optionReg := by cases c <;> rfl
@[simp] theorem State.skipIf_intcon (s : State) (c : Bool) : (s.skipIf c).intcon = s.intcon := by cases c <;> rfl
@[simp] theorem State.skipIf_latA (s : State) (c : Bool) : (s.skipIf c).latA = s.latA := by cases c <;> rfl
@[simp] theorem State.skipIf_trisA (s : State) (c : Bool) : (s.skipIf c).trisA = s.trisA := by cases c <;> rfl
@[simp] theorem State.skipIf_latB (s : State) (c : Bool) : (s.skipIf c).latB = s.latB := by cases c <;> rfl
@[simp] theorem State.skipIf_trisB (s : State) (c : Bool) : (s.skipIf c).trisB = s.trisB := by cases c <;> rfl
@[simp] theorem State.skipIf_eedata (s : State) (c : Bool) : (s.skipIf c).eedata = s.eedata := by cases c <;> rfl
@[simp] theorem State.skipIf_eeadr (s : State) (c : Bool) : (s.skipIf c).eeadr = s.eeadr := by cases c <;> rfl
@[simp] theorem State.skipIf_eecon1 (s : State) (c : Bool) : (s.skipIf c).eecon1 = s.eecon1 := by cases c <;> rfl
@[simp] theorem State.skipIf_ram (s : State) (c : Bool) : (s.skipIf c).ram = s.ram := by cases c <;> rfl
@[simp] theorem State.skipIf_eeprom (s : State) (c : Bool) : (s.skipIf c).eeprom = s.eeprom := by cases c <;> rfl
@[simp] theorem State.skipIf_wdt (s : State) (c : Bool) : (s.skipIf c).wdt = s.wdt := by cases c <;> rfl
@[simp] theorem State.skipIf_prescaler (s : State) (c : Bool) : (s.skipIf c).prescaler = s.prescaler := by cases c <;> rfl
@[simp] theorem State.skipIf_asleep (s : State) (c : Bool) : (s.skipIf c).asleep = s.asleep := by cases c <;> rfl
@[simp] theorem State.skipIf_t0Inhibit (s : State) (c : Bool) : (s.skipIf c).t0Inhibit = s.t0Inhibit := by cases c <;> rfl
@[simp] theorem State.skipIf_rbLast (s : State) (c : Bool) : (s.skipIf c).rbLast = s.rbLast := by cases c <;> rfl
@[simp] theorem State.skipIf_pinA (s : State) (c : Bool) : (s.skipIf c).pinA = s.pinA := by cases c <;> rfl
@[simp] theorem State.skipIf_pinB (s : State) (c : Bool) : (s.skipIf c).pinB = s.pinB := by cases c <;> rfl
@[simp] theorem State.skipIf_pinMclr (s : State) (c : Bool) : (s.skipIf c).pinMclr = s.pinMclr := by cases c <;> rfl
@[simp] theorem State.skipIf_env (s : State) (c : Bool) : (s.skipIf c).env = s.env := by cases c <;> rfl
@[simp] theorem State.skipIf_unwritten (s : State) (c : Bool) : (s.skipIf c).unwritten = s.unwritten := by cases c <;> rfl
@[simp] theorem State.skipIf_resets (s : State) (c : Bool) : (s.skipIf c).resets = s.resets := by cases c <;> rfl

/-! ### `State.afterRead` changes the PORTB latch of the change detector -/

@[simp] theorem State.afterRead_cfg (s : State) (r : Reg) : (s.afterRead r).cfg = s.cfg := by cases r <;> rfl
@[simp] theorem State.afterRead_prog (s : State) (r : Reg) : (s.afterRead r).prog = s.prog := by cases r <;> rfl
@[simp] theorem State.afterRead_w (s : State) (r : Reg) : (s.afterRead r).w = s.w := by cases r <;> rfl
@[simp] theorem State.afterRead_pc (s : State) (r : Reg) : (s.afterRead r).pc = s.pc := by cases r <;> rfl
@[simp] theorem State.afterRead_pclath (s : State) (r : Reg) : (s.afterRead r).pclath = s.pclath := by cases r <;> rfl
@[simp] theorem State.afterRead_stack (s : State) (r : Reg) : (s.afterRead r).stack = s.stack := by cases r <;> rfl
@[simp] theorem State.afterRead_sp (s : State) (r : Reg) : (s.afterRead r).sp = s.sp := by cases r <;> rfl
@[simp] theorem State.afterRead_stackPtr (s : State) (r : Reg) : (s.afterRead r).stackPtr = s.stackPtr := by cases r <;> rfl
@[simp] theorem State.afterRead_status (s : State) (r : Reg) : (s.afterRead r).status = s.status := by cases r <;> rfl
@[simp] theorem State.afterRead_fsr (s : State) (r : Reg) : (s.afterRead r).fsr = s.fsr := by cases r <;> rfl
@[simp] theorem State.afterRead_tmr0 (s : State) (r : Reg) : (s.afterRead r).tmr0 = s.tmr0 := by cases r <;> rfl
@[simp] theorem State.afterRead_optionReg (s : State) (r : Reg) : (s.afterRead r).optionReg = s.optionReg := by cases r <;> rfl
@[simp] theorem State.afterRead_intcon (s : State) (r : Reg) : (s.afterRead r).intcon = s.intcon := by cases r <;> rfl
@[simp] theorem State.afterRead_latA (s : State) (r : Reg) : (s.afterRead r).latA = s.latA := by cases r <;> rfl
@[simp] theorem State.afterRead_trisA (s : State) (r : Reg) : (s.afterRead r).trisA = s.trisA := by cases r <;> rfl
@[simp] theorem State.afterRead_latB (s : State) (r : Reg) : (s.afterRead r).latB = s.latB := by cases r <;> rfl
@[simp] theorem State.afterRead_trisB (s : State) (r : Reg) : (s.afterRead r).trisB = s.trisB := by cases r <;> rfl
@[simp] theorem State.afterRead_eedata (s : State) (r : Reg) : (s.afterRead r).eedata = s.eedata := by cases r <;> rfl
@[simp] theorem State.afterRead_eeadr (s : State) (r : Reg) : (s.afterRead r).eeadr = s.eeadr := by cases r <;> rfl
@[simp] theorem State.afterRead_eecon1 (s : State) (r : Reg) : (s.afterRead r).eecon1 = s.eecon1 := by cases r <;> rfl
@[simp] theorem State.afterRead_ram (s : State) (r : Reg) : (s.afterRead r).ram = s.ram := by cases r <;> rfl
@[simp] theorem State.afterRead_eeprom (s : State) (r : Reg) : (s.afterRead r).eeprom = s.eeprom := by cases r <;> rfl
@[simp] theorem State.afterRead_wdt (s : State) (r : Reg) : (s.afterRead r).wdt = s.wdt := by cases r <;> rfl
@[simp] theorem State.afterRead_prescaler (s : State) (r : Reg) : (s.afterRead r).prescaler = s.prescaler := by cases r <;> rfl
@[simp] theorem State.afterRead_asleep (s : State) (r : Reg) : (s.afterRead r).asleep = s.asleep := by cases r <;> rfl
@[simp] theorem State.afterRead_t0Inhibit (s : State) (r : Reg) : (s.afterRead r).t0Inhibit = s.t0Inhibit := by cases r <;> rfl
@[simp] theorem State.afterRead_pinA (s : State) (r : Reg) : (s.afterRead r).pinA = s.pinA := by cases r <;> rfl
@[simp] theorem State.afterRead_pinB (s : State) (r : Reg) : (s.afterRead r).pinB = s.pinB := by cases r <;> rfl
@[simp] theorem State.afterRead_pinMclr (s : State) (r : Reg) : (s.afterRead r).pinMclr = s.pinMclr := by cases r <;> rfl
@[simp] theorem State.afterRead_env (s : State) (r : Reg) : (s.afterRead r).env = s.env := by cases r <;> rfl
@[simp] theorem State.afterRead_unwritten (s : State) (r : Reg) : (s.afterRead r).unwritten = s.unwritten := by cases r <;> rfl
@[simp] theorem State.afterRead_resets (s : State) (r : Reg) : (s.afterRead r).resets = s.resets := by cases r <;> rfl
@[simp] theorem State.afterRead_cyc (s : State) (r : Reg) : (s.afterRead r).cyc = s.cyc := by cases r <;> rfl

/-! ### `State.storeReg` changes the file registers and what a write of PCL or TMR0 also changes -/

@[simp] theorem State.storeReg_cfg (s : State) (u : FlagUpdate) (v : Byte) (r : Reg) : (s.storeReg u v r).cfg = s.cfg := by cases r <;> rfl
@[simp] theorem State.storeReg_prog (s : State) (u : FlagUpdate) (v : Byte) (r : Reg) : (s.storeReg u v r).prog = s.prog := by cases r <;> rfl
@[simp] theorem State.storeReg_w (s : State) (u : FlagUpdate) (v : Byte) (r : Reg) : (s.storeReg u v r).w = s.w := by cases r <;> rfl
@[simp] theorem State.storeReg_stack (s : State) (u : FlagUpdate) (v : Byte) (r : Reg) : (s.storeReg u v r).stack = s.stack := by cases r <;> rfl
@[simp] theorem State.storeReg_sp (s : State) (u : FlagUpdate) (v : Byte) (r : Reg) : (s.storeReg u v r).sp = s.sp := by cases r <;> rfl
@[simp] theorem State.storeReg_stackPtr (s : State) (u : FlagUpdate) (v : Byte) (r : Reg) : (s.storeReg u v r).stackPtr = s.stackPtr := by cases r <;> rfl
@[simp] theorem State.storeReg_eecon1 (s : State) (u : FlagUpdate) (v : Byte) (r : Reg) : (s.storeReg u v r).eecon1 = s.eecon1 := by cases r <;> rfl
@[simp] theorem State.storeReg_eeprom (s : State) (u : FlagUpdate) (v : Byte) (r : Reg) : (s.storeReg u v r).eeprom = s.eeprom := by cases r <;> rfl
@[simp] theorem State.storeReg_wdt (s : State) (u : FlagUpdate) (v : Byte) (r : Reg) : (s.storeReg u v r).wdt = s.wdt := by cases r <;> rfl
@[simp] theorem State.storeReg_asleep (s : State) (u : FlagUpdate) (v : Byte) (r : Reg) : (s.storeReg u v r).asleep = s.asleep := by cases r <;> rfl
@[simp] theorem State.storeReg_rbLast (s : State) (u : FlagUpdate) (v : Byte) (r : Reg) : (s.storeReg u v r).rbLast = s.rbLast := by cases r <;> rfl
@[simp] theorem State.storeReg_pinA (s : State) (u : FlagUpdate) (v : Byte) (r : Reg) : (s.storeReg u v r).pinA = s.pinA := by cases r <;> rfl
@[simp] theorem State.storeReg_pinB (s : State) (u : FlagUpdate) (v : Byte) (r : Reg) : (s.storeReg u v r).pinB = s.pinB := by cases r <;> rfl
@[simp] theorem State.storeReg_pinMclr (s : State) (u : FlagUpdate) (v : Byte) (r : Reg) : (s.storeReg u v r).pinMclr = s.pinMclr := by cases r <;> rfl
@[simp] theorem State.storeReg_env (s : State) (u : FlagUpdate) (v : Byte) (r : Reg) : (s.storeReg u v r).env = s.env := by cases r <;> rfl
@[simp] theorem State.storeReg_unwritten (s : State) (u : FlagUpdate) (v : Byte) (r : Reg) : (s.storeReg u v r).unwritten = s.unwritten := by cases r <;> rfl
@[simp] theorem State.storeReg_resets (s : State) (u : FlagUpdate) (v : Byte) (r : Reg) : (s.storeReg u v r).resets = s.resets := by cases r <;> rfl

end Sys2Proof.Machine
end

