-- ==== Sys2Proof/Laws/Flags.lean ====
section
/-! SUPPORT. The laws of the bit and flag operations. -/

namespace Sys2Proof.Machine

/-- Setting bit `i` gives that bit the value and keeps the others. -/
theorem setBit_getLsbD {n : Nat} (i : Nat) (v : Bool) (b : BitVec n) (j : Nat) (hi : i < n) :
    (setBit i v b).getLsbD j = if j = i then v else b.getLsbD j := by
  unfold setBit
  have hz : (1#n <<< i).getLsbD j = decide (j = i) := by
    simp only [BitVec.getLsbD_shiftLeft, BitVec.getLsbD_one]
    by_cases h : j = i
    · subst h
      simp [hi]
      omega
    · simp only [h, decide_false]
      by_cases hlt : j < i
      · simp [hlt]
      · have : j - i ≠ 0 := by omega
        simp [this]
  cases v
  · simp only [Bool.false_eq_true, if_false, BitVec.getLsbD_and, BitVec.getLsbD_not, hz]
    by_cases h : j = i
    · simp [h]
    · by_cases hj : j < n
      · simp [h, hj]
      · simp [h, hj, BitVec.getLsbD_of_ge b j (by omega)]
  · simp only [if_true, BitVec.getLsbD_or, hz]
    by_cases h : j = i <;> simp [h]

/-- The flag bits after an update: those it gives, and the old ones (R39). -/
theorem FlagUpdate.apply_getLsbD (u : FlagUpdate) (b : Byte) (j : Nat) :
    (u.apply b).getLsbD j =
      if j = 0 then u.c.getD (b.getLsbD 0)
      else if j = 1 then u.dc.getD (b.getLsbD 1)
      else if j = 2 then u.z.getD (b.getLsbD 2)
      else b.getLsbD j := by
  have opt : ∀ (i : Nat) (o : Option Bool) (c : Byte), i < 8 →
      (setBitOpt i o c).getLsbD j = if j = i then o.getD (c.getLsbD i) else c.getLsbD j := by
    intro i o c hi
    cases o with
    | none => by_cases h : j = i <;> simp [setBitOpt, h]
    | some v => simp [setBitOpt, setBit_getLsbD, hi]
  have opt' : ∀ (i k : Nat) (o : Option Bool) (c : Byte), i < 8 → k ≠ i →
      (setBitOpt i o c).getLsbD k = c.getLsbD k := by
    intro i k o c hi hk
    cases o with
    | none => rfl
    | some v => simp [setBitOpt, setBit_getLsbD, hi, hk]
  unfold FlagUpdate.apply
  rw [opt 0 _ _ (by omega), opt' 1 0 _ _ (by omega) (by omega), opt' 2 0 _ _ (by omega) (by omega),
    opt 1 _ _ (by omega), opt' 2 1 _ _ (by omega) (by omega), opt 2 _ _ (by omega)]

/-- The update written as a concatenation of STATUS's bits is the same update (R30, R39). -/
theorem FlagUpdate.apply_eq_putFlags (u : FlagUpdate) (b : Byte) : u.apply b = putFlags u b := by
  apply BitVec.eq_of_getLsbD_eq
  intro j hj
  rw [FlagUpdate.apply_getLsbD]
  unfold putFlags
  have hj : j < 8 := hj
  interval_cases j <;>
    simp only [BitVec.getLsbD_append, BitVec.getLsbD_extractLsb', BitVec.getLsbD_ofBool] <;> simp

@[simp] theorem putFlags_noFlags (b : Byte) : putFlags noFlags b = b := by
  rw [← FlagUpdate.apply_eq_putFlags]; rfl

@[simp] theorem noFlags_apply (b : Byte) : noFlags.apply b = b := rfl

/-- The bits of STATUS after a data write (R38). -/
theorem statusAfterWrite_getLsbD (u : FlagUpdate) (v old : Byte) (j : Nat) (hj : j < 8) :
    (statusAfterWrite u v old).getLsbD j =
      if 5 ≤ j ∨ (j < 3 ∧ u.affectsAny = false) then v.getLsbD j else old.getLsbD j := by
  unfold statusAfterWrite statusWriteMask
  cases u.affectsAny <;> interval_cases j <;> simp

/-- `/TO` and `/PD` set as CLRWDT does, and as SLEEP does (R181, R183). -/
theorem withToPd_clrwdt : ∀ b : Byte, withToPd true true b = b ||| 0x18 := by decide

theorem withToPd_sleep : ∀ b : Byte, withToPd true false b = (b &&& 0xE7) ||| 0x10 := by decide

theorem setBit_intcon_gie : ∀ b : Byte,
    setBit 7 true b = b ||| 0x80 ∧ setBit 7 false b = b &&& 0x7F := by decide

theorem setBit_intcon_flags : ∀ b : Byte,
    setBit 0 true b = b ||| 0x01 ∧ setBit 1 true b = b ||| 0x02 ∧ setBit 2 true b = b ||| 0x04 := by
  decide

end Sys2Proof.Machine
end

