-- ==== Sys2Proof/Laws/Ops.lean ====
section
/-! SUPPORT. For each shared operation, one lemma that says everything it can do. Proofs about
instructions cite these and do not unfold the operations. -/

namespace Sys2Proof.Machine

open Sys2Proof.Config (UnknownLoc)

/-! ### Outcomes -/

@[simp] theorem onNext_next (g : State → State) (s : State) : onNext g (.next s) = .next (g s) := rfl
@[simp] theorem onNext_fault (g : State → State) (e : Fault) : onNext g (.fault e) = .fault e := rfl
@[simp] theorem onNext_refused (g : State → State) (e : Refusal) :
    onNext g (.refused e) = .refused e := rfl

theorem onNext_eq_next {g : State → State} {o : Result} {t : State} :
    onNext g o = .next t ↔ ∃ s, o = .next s ∧ g s = t := by
  cases o <;> simp

/-! ### Marks -/

/-- No location needed is unwritten exactly when all of them are known (R59). -/
theorem State.firstUnwritten_eq_none {s : State} {needs : List UnknownLoc} :
    s.firstUnwritten needs = none ↔ s.Known needs := by
  unfold State.firstUnwritten State.Known
  cases s.cfg.uninitPolicy <;> simp

/-- A location reported is needed and unwritten, under the fault policy (R59). -/
theorem State.firstUnwritten_eq_some {s : State} {needs : List UnknownLoc} {l : UnknownLoc}
    (h : s.firstUnwritten needs = some l) :
    s.cfg.uninitPolicy = .fault ∧ l ∈ needs ∧ l ∈ s.unwritten := by
  unfold State.firstUnwritten at h
  cases hp : s.cfg.uninitPolicy <;> rw [hp] at h
  · simp at h
  · have hc := List.find?_some h
    exact ⟨rfl, List.mem_of_find?_eq_some h, by simpa using hc⟩

/-- With every needed location known the operation goes on. -/
theorem State.ifKnown_of_known {s : State} {needs : List UnknownLoc} (k : State → Result)
    (h : s.Known needs) : s.ifKnown needs k = k s := by
  simp [State.ifKnown, State.firstUnwritten_eq_none.2 h]

theorem State.ifKnown_next {s t : State} {needs : List UnknownLoc} {k : State → Result}
    (h : s.ifKnown needs k = .next t) : s.Known needs ∧ k s = .next t := by
  unfold State.ifKnown at h
  split at h
  · simp at h
  · rename_i hn
    exact ⟨State.firstUnwritten_eq_none.1 hn, h⟩

/-- Marking twice is marking once. -/
theorem State.markWritten_marksAfter (s : State) (l k : List UnknownLoc) :
    (s.markWritten l).marksAfter k = s.marksAfter (l ++ k) := by
  unfold State.marksAfter
  simp only [State.markWritten_cfg, State.markWritten_unwritten, State.marksAfter]
  cases s.cfg.uninitPolicy
  · rfl
  · simp only [List.filter_filter]
    congr 1
    funext x
    simp [Bool.and_comm]

/-- The marks depend on the state's marks and policy alone. -/
theorem State.marksAfter_congr {s t : State} (hc : t.cfg = s.cfg) (hu : t.unwritten = s.unwritten)
    (l : List UnknownLoc) : t.marksAfter l = s.marksAfter l := by
  simp [State.marksAfter, hc, hu]

/-! ### Operands -/

/-- Neither the hardware PC nor the cycle count takes part in addressing (R76). -/
@[simp] theorem State.advance_operand (s : State) (f : FileField) :
    s.advance.operand f = s.operand f := rfl

@[simp] theorem State.advance_readNeeds (s : State) (r : Reg) :
    s.advance.readNeeds r = s.readNeeds r := rfl

@[simp] theorem State.advance_bitNeeds (s : State) (r : Reg) (b : BitField) :
    s.advance.bitNeeds r b = s.bitNeeds r b := rfl

@[simp] theorem State.advance_bitWriteNeeds (s : State) (r : Reg) :
    s.advance.bitWriteNeeds r = s.bitWriteNeeds r := by cases r <;> rfl

@[simp] theorem State.advance_instrAddr (s : State) : s.advance.instrAddr = s.pc := by
  simp [State.instrAddr]

@[simp] theorem State.afterRead_instrAddr (s : State) (r : Reg) :
    (s.afterRead r).instrAddr = s.instrAddr := by simp [State.instrAddr]

/-! ### Writes of file registers: the registers a write leaves alone -/

theorem State.storeReg_tmr0_of_ne {s : State} {u : FlagUpdate} {v : Byte} {r : Reg}
    (h : r ≠ .tmr0) : (s.storeReg u v r).tmr0 = s.tmr0 ∧ (s.storeReg u v r).t0Inhibit = s.t0Inhibit
      ∧ (s.storeReg u v r).prescaler = s.prescaler := by
  cases r <;> first | exact absurd rfl h | exact ⟨rfl, rfl, rfl⟩

theorem State.storeReg_optionReg_of_ne {s : State} {u : FlagUpdate} {v : Byte} {r : Reg}
    (h : r ≠ .optionReg) : (s.storeReg u v r).optionReg = s.optionReg := by
  cases r <;> first | exact absurd rfl h | rfl

theorem State.storeReg_pc_of_ne {s : State} {u : FlagUpdate} {v : Byte} {r : Reg}
    (h : r ≠ .pcl) : (s.storeReg u v r).pc = s.pc ∧ (s.storeReg u v r).cyc = s.cyc := by
  cases r <;> first | exact absurd rfl h | exact ⟨rfl, rfl⟩

theorem State.storeReg_status_of_ne {s : State} {u : FlagUpdate} {v : Byte} {r : Reg}
    (h : r ≠ .status) : (s.storeReg u v r).status = s.status := by
  cases r <;> first | exact absurd rfl h | rfl

theorem State.storeReg_fsr_of_ne {s : State} {u : FlagUpdate} {v : Byte} {r : Reg}
    (h : r ≠ .fsr) : (s.storeReg u v r).fsr = s.fsr := by
  cases r <;> first | exact absurd rfl h | rfl

theorem State.storeReg_latA_of_ne {s : State} {u : FlagUpdate} {v : Byte} {r : Reg}
    (h : r ≠ .portA) : (s.storeReg u v r).latA = s.latA := by
  cases r <;> first | exact absurd rfl h | rfl

theorem State.storeReg_trisA_of_ne {s : State} {u : FlagUpdate} {v : Byte} {r : Reg}
    (h : r ≠ .trisA) : (s.storeReg u v r).trisA = s.trisA := by
  cases r <;> first | exact absurd rfl h | rfl

theorem State.storeReg_latB_of_ne {s : State} {u : FlagUpdate} {v : Byte} {r : Reg}
    (h : r ≠ .portB) : (s.storeReg u v r).latB = s.latB := by
  cases r <;> first | exact absurd rfl h | rfl

theorem State.storeReg_trisB_of_ne {s : State} {u : FlagUpdate} {v : Byte} {r : Reg}
    (h : r ≠ .trisB) : (s.storeReg u v r).trisB = s.trisB := by
  cases r <;> first | exact absurd rfl h | rfl

theorem State.storeReg_eedata_of_ne {s : State} {u : FlagUpdate} {v : Byte} {r : Reg}
    (h : r ≠ .eedata) : (s.storeReg u v r).eedata = s.eedata := by
  cases r <;> first | exact absurd rfl h | rfl

theorem State.storeReg_eeadr_of_ne {s : State} {u : FlagUpdate} {v : Byte} {r : Reg}
    (h : r ≠ .eeadr) : (s.storeReg u v r).eeadr = s.eeadr := by
  cases r <;> first | exact absurd rfl h | rfl

theorem State.storeReg_pclath_of_ne {s : State} {u : FlagUpdate} {v : Byte} {r : Reg}
    (h : r ≠ .pclath) : (s.storeReg u v r).pclath = s.pclath := by
  cases r <;> first | exact absurd rfl h | rfl

theorem State.storeReg_intcon_of_ne {s : State} {u : FlagUpdate} {v : Byte} {r : Reg}
    (h : r ≠ .intcon) : (s.storeReg u v r).intcon = s.intcon := by
  cases r <;> first | exact absurd rfl h | rfl

theorem State.storeReg_ram_of_ne {s : State} {u : FlagUpdate} {v : Byte} {r : Reg}
    (h : ∀ a, r ≠ .gpr a) : (s.storeReg u v r).ram = s.ram := by
  cases r <;> first | exact absurd rfl (h _) | rfl

theorem State.afterRead_rbLast_of_ne {s : State} {r : Reg} (h : r ≠ .portB) :
    (s.afterRead r).rbLast = s.rbLast := by
  cases r <;> first | exact absurd rfl h | rfl

/-! ### The shapes of the instructions -/

theorem State.writeReg_of_not_eecon {s : State} {r : Reg} (x : ByteResult) (marks : List UnknownLoc)
    (h : r.isEecon = false) :
    s.writeReg r x marks
      = .next (((s.storeReg x.flags x.value r).markWritten marks).applyFlags x.flags) := by
  simp [State.writeReg, h]

theorem State.writeReg_of_eecon {s : State} {r : Reg} (x : ByteResult) (marks : List UnknownLoc)
    (h : r.isEecon = true) : s.writeReg r x marks = .fault (.unmodelled .eeprom s.instrAddr) := by
  simp [State.writeReg, h]

theorem State.writeReg_next {s t : State} {r : Reg} {x : ByteResult} {marks : List UnknownLoc}
    (h : s.writeReg r x marks = .next t) :
    r.isEecon = false
      ∧ t = ((s.storeReg x.flags x.value r).markWritten marks).applyFlags x.flags := by
  unfold State.writeReg at h
  split at h
  · simp at h
  · rename_i hr
    exact ⟨by simpa using hr, by simpa using h.symm⟩

theorem State.writeDest_next {s t : State} {d : Dest} {r : Reg} {x : ByteResult}
    (h : s.writeDest d r x = .next t) :
    (d = .w ∧ t = (s.setW x.value).applyFlags x.flags)
    ∨ (d = .f ∧ r.isEecon = false
        ∧ t = ((s.storeReg x.flags x.value r).markWritten (writeMarks r x.flags)).applyFlags x.flags) := by
  cases d
  · exact .inl ⟨rfl, by simpa [State.writeDest] using h.symm⟩
  · exact .inr ⟨rfl, State.writeReg_next h⟩

theorem literalOp_next {needs : List UnknownLoc} {x : ByteResult} {s t : State}
    (h : literalOp needs x s = .next t) :
    s.Known needs ∧ t = (s.advance.setW x.value).applyFlags x.flags := by
  obtain ⟨hk, h⟩ := State.ifKnown_next h
  exact ⟨hk, by simpa using h.symm⟩

theorem byteOp_next {needs : List UnknownLoc} {op : Byte → ByteResult} {d : Dest} {f : FileField}
    {s t : State} (h : byteOp needs op d f s = .next t) :
    let r := s.operand f
    let x := op (s.advance.regValue r)
    (d = .w ∧ t = ((s.advance.afterRead r).setW x.value).applyFlags x.flags)
    ∨ (d = .f ∧ r.isEecon = false
        ∧ t = (((s.advance.afterRead r).storeReg x.flags x.value r).markWritten
            (writeMarks r x.flags)).applyFlags x.flags) := by
  dsimp only [byteOp] at h
  obtain ⟨_, h⟩ := State.ifKnown_next h
  exact State.writeDest_next h

theorem byteSkipOp_next {op : Byte → Byte} {d : Dest} {f : FileField} {s t : State}
    (h : byteSkipOp op d f s = .next t) :
    let r := s.operand f
    let v := op (s.advance.regValue r)
    (d = .w ∧ t = (((s.advance.afterRead r).setW v).applyFlags noFlags).skipIf (v == 0))
    ∨ (d = .f ∧ r.isEecon = false ∧ r ≠ .pcl
        ∧ t = ((((s.advance.afterRead r).storeReg noFlags v r).markWritten
            (writeMarks r noFlags)).applyFlags noFlags).skipIf (v == 0)) := by
  dsimp only [byteSkipOp] at h
  obtain ⟨_, h⟩ := State.ifKnown_next h
  split at h
  · simp at h
  · rename_i hp
    obtain ⟨u, hu, rfl⟩ := onNext_eq_next.1 h
    rcases State.writeDest_next hu with ⟨hd, rfl⟩ | ⟨hd, hr, rfl⟩
    · exact .inl ⟨hd, rfl⟩
    · exact .inr ⟨hd, hr, fun hpc => hp ⟨hd, hpc⟩, rfl⟩

theorem byteWriteOp_next {needs : List UnknownLoc} {x : ByteResult} {f : FileField} {s t : State}
    (h : byteWriteOp needs x f s = .next t) :
    let r := s.operand f
    r.isEecon = false
      ∧ t = ((s.advance.storeReg x.flags x.value r).markWritten (writeMarks r x.flags)).applyFlags
          x.flags := by
  dsimp only [byteWriteOp] at h
  obtain ⟨_, h⟩ := State.ifKnown_next h
  exact State.writeReg_next h

theorem bitWriteOp_next {v : Bool} {b : BitField} {f : FileField} {s t : State}
    (h : bitWriteOp v b f s = .next t) :
    let r := s.operand f
    r.isEecon = false
      ∧ t = (((s.advance.afterRead r).storeReg noFlags (setBit b.toNat v (s.advance.regValue r))
          r).markWritten (bitWriteMarks r b)).applyFlags noFlags := by
  dsimp only [bitWriteOp] at h
  obtain ⟨_, h⟩ := State.ifKnown_next h
  exact State.writeReg_next h

theorem bitTestOp_next {v : Bool} {b : BitField} {f : FileField} {s t : State}
    (h : bitTestOp v b f s = .next t) :
    let r := s.operand f
    t = (s.advance.afterRead r).skipIf ((s.advance.regValue r).getLsbD b.toNat == v) := by
  dsimp only [bitTestOp] at h
  obtain ⟨_, h⟩ := State.ifKnown_next h
  simpa using h.symm

/-! ### The return stack -/

/-- A push that succeeds writes one entry and moves the depth or the pointer (R27, R29). -/
theorem State.push_ok {s t : State} {v a : ProgAddr} (h : s.push v a = .ok t) :
    ∃ stack sp ptr, t = { s with stack := stack, sp := sp, stackPtr := ptr } := by
  unfold State.push at h
  split at h
  · split at h
    · exact ⟨_, _, _, by simpa using h.symm⟩
    · simp at h
  · exact ⟨_, _, _, by simpa using h.symm⟩

/-- A pop that succeeds moves the depth or the pointer and leaves the entries (R28, R29). -/
theorem State.pop_ok {s t : State} {v a : ProgAddr} (h : s.pop a = .ok (v, t)) :
    ∃ sp ptr, t = { s with sp := sp, stackPtr := ptr } := by
  unfold State.pop at h
  split at h
  · split at h
    · simp at h
      exact ⟨_, s.stackPtr, h.2.symm⟩
    · simp at h
  · simp at h
    exact ⟨s.sp, _, h.2.symm⟩

theorem State.popReturn_next {s t : State} (h : s.popReturn = .next t) :
    ∃ a sp ptr, t = { s with pc := a, sp := sp, stackPtr := ptr, cyc := 2 } := by
  unfold State.popReturn at h
  split at h
  · simp at h
  · rename_i a u hp
    obtain ⟨sp, ptr, rfl⟩ := State.pop_ok hp
    exact ⟨a, sp, ptr, by simpa [State.jump] using h.symm⟩

theorem State.interruptReturn_next {s t : State} (h : s.interruptReturn = .next t) :
    ∃ a sp ptr, t = { s with
      pc := a, sp := sp, stackPtr := ptr, cyc := 2, intcon := setBit 7 true s.intcon } := by
  obtain ⟨u, hu, rfl⟩ := onNext_eq_next.1 h
  obtain ⟨a, sp, ptr, rfl⟩ := State.popReturn_next hu
  exact ⟨a, sp, ptr, rfl⟩

/-- Interrupt entry changes the stack, GIE, the pc and the cycle count, and nothing else (R213). -/
theorem State.interruptEntry_ok {s t : State} (h : s.interruptEntry = .ok t) :
    ∃ stack sp ptr, t = { s with
      stack := stack, sp := sp, stackPtr := ptr, intcon := setBit 7 false s.intcon,
      pc := Config.interruptVector, cyc := 2 } := by
  unfold State.interruptEntry at h
  split at h
  · simp at h
  · rename_i u hp
    obtain ⟨stack, sp, ptr, rfl⟩ := State.push_ok hp
    exact ⟨stack, sp, ptr, by simpa [State.jump] using h.symm⟩

theorem execCall_next {k : BitVec 11} {s t : State} (h : execCall k s = .next t) :
    ∃ stack sp ptr, t = { s with
      stack := stack, sp := sp, stackPtr := ptr, pc := s.target k, cyc := 2 } := by
  unfold execCall at h
  split at h
  · simp at h
  · rename_i u hp
    obtain ⟨stack, sp, ptr, rfl⟩ := State.push_ok hp
    exact ⟨stack, sp, ptr, by simpa [State.jump, State.target, State.advance] using h.symm⟩

end Sys2Proof.Machine
end

