-- ==== Sys2Proof/Laws/Timer.lean ====
section
/-! SUPPORT. What the Timer0 operations leave alone, one lemma a field, and what they do. -/

namespace Sys2Proof.Machine

/-! ### `State.timerInc` changes TMR0 and INTCON -/

@[simp] theorem State.timerInc_cfg (s : State) : (s.timerInc).cfg = s.cfg := rfl
@[simp] theorem State.timerInc_prog (s : State) : (s.timerInc).prog = s.prog := rfl
@[simp] theorem State.timerInc_w (s : State) : (s.timerInc).w = s.w := rfl
@[simp] theorem State.timerInc_pc (s : State) : (s.timerInc).pc = s.pc := rfl
@[simp] theorem State.timerInc_pclath (s : State) : (s.timerInc).pclath = s.pclath := rfl
@[simp] theorem State.timerInc_stack (s : State) : (s.timerInc).stack = s.stack := rfl
@[simp] theorem State.timerInc_sp (s : State) : (s.timerInc).sp = s.sp := rfl
@[simp] theorem State.timerInc_stackPtr (s : State) : (s.timerInc).stackPtr = s.stackPtr := rfl
@[simp] theorem State.timerInc_status (s : State) : (s.timerInc).status = s.status := rfl
@[simp] theorem State.timerInc_fsr (s : State) : (s.timerInc).fsr = s.fsr := rfl
@[simp] theorem State.timerInc_optionReg (s : State) : (s.timerInc).optionReg = s.optionReg := rfl
@[simp] theorem State.timerInc_latA (s : State) : (s.timerInc).latA = s.latA := rfl
@[simp] theorem State.timerInc_trisA (s : State) : (s.timerInc).trisA = s.trisA := rfl
@[simp] theorem State.timerInc_latB (s : State) : (s.timerInc).latB = s.latB := rfl
@[simp] theorem State.timerInc_trisB (s : State) : (s.timerInc).trisB = s.trisB := rfl
@[simp] theorem State.timerInc_eedata (s : State) : (s.timerInc).eedata = s.eedata := rfl
@[simp] theorem State.timerInc_eeadr (s : State) : (s.timerInc).eeadr = s.eeadr := rfl
@[simp] theorem State.timerInc_eecon1 (s : State) : (s.timerInc).eecon1 = s.eecon1 := rfl
@[simp] theorem State.timerInc_ram (s : State) : (s.timerInc).ram = s.ram := rfl
@[simp] theorem State.timerInc_eeprom (s : State) : (s.timerInc).eeprom = s.eeprom := rfl
@[simp] theorem State.timerInc_wdt (s : State) : (s.timerInc).wdt = s.wdt := rfl
@[simp] theorem State.timerInc_prescaler (s : State) : (s.timerInc).prescaler = s.prescaler := rfl
@[simp] theorem State.timerInc_asleep (s : State) : (s.timerInc).asleep = s.asleep := rfl
@[simp] theorem State.timerInc_t0Inhibit (s : State) : (s.timerInc).t0Inhibit = s.t0Inhibit := rfl
@[simp] theorem State.timerInc_rbLast (s : State) : (s.timerInc).rbLast = s.rbLast := rfl
@[simp] theorem State.timerInc_pinA (s : State) : (s.timerInc).pinA = s.pinA := rfl
@[simp] theorem State.timerInc_pinB (s : State) : (s.timerInc).pinB = s.pinB := rfl
@[simp] theorem State.timerInc_pinMclr (s : State) : (s.timerInc).pinMclr = s.pinMclr := rfl
@[simp] theorem State.timerInc_env (s : State) : (s.timerInc).env = s.env := rfl
@[simp] theorem State.timerInc_unwritten (s : State) : (s.timerInc).unwritten = s.unwritten := rfl
@[simp] theorem State.timerInc_resets (s : State) : (s.timerInc).resets = s.resets := rfl
@[simp] theorem State.timerInc_cyc (s : State) : (s.timerInc).cyc = s.cyc := rfl

/-! ### `State.prescale` changes the prescaler -/

@[simp] theorem State.prescale_cfg (s : State) : (s.prescale).cfg = s.cfg := rfl
@[simp] theorem State.prescale_prog (s : State) : (s.prescale).prog = s.prog := rfl
@[simp] theorem State.prescale_w (s : State) : (s.prescale).w = s.w := rfl
@[simp] theorem State.prescale_pc (s : State) : (s.prescale).pc = s.pc := rfl
@[simp] theorem State.prescale_pclath (s : State) : (s.prescale).pclath = s.pclath := rfl
@[simp] theorem State.prescale_stack (s : State) : (s.prescale).stack = s.stack := rfl
@[simp] theorem State.prescale_sp (s : State) : (s.prescale).sp = s.sp := rfl
@[simp] theorem State.prescale_stackPtr (s : State) : (s.prescale).stackPtr = s.stackPtr := rfl
@[simp] theorem State.prescale_status (s : State) : (s.prescale).status = s.status := rfl
@[simp] theorem State.prescale_fsr (s : State) : (s.prescale).fsr = s.fsr := rfl
@[simp] theorem State.prescale_tmr0 (s : State) : (s.prescale).tmr0 = s.tmr0 := rfl
@[simp] theorem State.prescale_optionReg (s : State) : (s.prescale).optionReg = s.optionReg := rfl
@[simp] theorem State.prescale_intcon (s : State) : (s.prescale).intcon = s.intcon := rfl
@[simp] theorem State.prescale_latA (s : State) : (s.prescale).latA = s.latA := rfl
@[simp] theorem State.prescale_trisA (s : State) : (s.prescale).trisA = s.trisA := rfl
@[simp] theorem State.prescale_latB (s : State) : (s.prescale).latB = s.latB := rfl
@[simp] theorem State.prescale_trisB (s : State) : (s.prescale).trisB = s.trisB := rfl
@[simp] theorem State.prescale_eedata (s : State) : (s.prescale).eedata = s.eedata := rfl
@[simp] theorem State.prescale_eeadr (s : State) : (s.prescale).eeadr = s.eeadr := rfl
@[simp] theorem State.prescale_eecon1 (s : State) : (s.prescale).eecon1 = s.eecon1 := rfl
@[simp] theorem State.prescale_ram (s : State) : (s.prescale).ram = s.ram := rfl
@[simp] theorem State.prescale_eeprom (s : State) : (s.prescale).eeprom = s.eeprom := rfl
@[simp] theorem State.prescale_wdt (s : State) : (s.prescale).wdt = s.wdt := rfl
@[simp] theorem State.prescale_asleep (s : State) : (s.prescale).asleep = s.asleep := rfl
@[simp] theorem State.prescale_t0Inhibit (s : State) : (s.prescale).t0Inhibit = s.t0Inhibit := rfl
@[simp] theorem State.prescale_rbLast (s : State) : (s.prescale).rbLast = s.rbLast := rfl
@[simp] theorem State.prescale_pinA (s : State) : (s.prescale).pinA = s.pinA := rfl
@[simp] theorem State.prescale_pinB (s : State) : (s.prescale).pinB = s.pinB := rfl
@[simp] theorem State.prescale_pinMclr (s : State) : (s.prescale).pinMclr = s.pinMclr := rfl
@[simp] theorem State.prescale_env (s : State) : (s.prescale).env = s.env := rfl
@[simp] theorem State.prescale_unwritten (s : State) : (s.prescale).unwritten = s.unwritten := rfl
@[simp] theorem State.prescale_resets (s : State) : (s.prescale).resets = s.resets := rfl
@[simp] theorem State.prescale_cyc (s : State) : (s.prescale).cyc = s.cyc := rfl

/-! ### `State.timerTick` also changes the prescaler -/

@[simp] theorem State.timerTick_cfg (s : State) : (s.timerTick).cfg = s.cfg := by unfold State.timerTick; split <;> first | (split <;> simp) | simp
@[simp] theorem State.timerTick_prog (s : State) : (s.timerTick).prog = s.prog := by unfold State.timerTick; split <;> first | (split <;> simp) | simp
@[simp] theorem State.timerTick_w (s : State) : (s.timerTick).w = s.w := by unfold State.timerTick; split <;> first | (split <;> simp) | simp
@[simp] theorem State.timerTick_pc (s : State) : (s.timerTick).pc = s.pc := by unfold State.timerTick; split <;> first | (split <;> simp) | simp
@[simp] theorem State.timerTick_pclath (s : State) : (s.timerTick).pclath = s.pclath := by unfold State.timerTick; split <;> first | (split <;> simp) | simp
@[simp] theorem State.timerTick_stack (s : State) : (s.timerTick).stack = s.stack := by unfold State.timerTick; split <;> first | (split <;> simp) | simp
@[simp] theorem State.timerTick_sp (s : State) : (s.timerTick).sp = s.sp := by unfold State.timerTick; split <;> first | (split <;> simp) | simp
@[simp] theorem State.timerTick_stackPtr (s : State) : (s.timerTick).stackPtr = s.stackPtr := by unfold State.timerTick; split <;> first | (split <;> simp) | simp
@[simp] theorem State.timerTick_status (s : State) : (s.timerTick).status = s.status := by unfold State.timerTick; split <;> first | (split <;> simp) | simp
@[simp] theorem State.timerTick_fsr (s : State) : (s.timerTick).fsr = s.fsr := by unfold State.timerTick; split <;> first | (split <;> simp) | simp
@[simp] theorem State.timerTick_optionReg (s : State) : (s.timerTick).optionReg = s.optionReg := by unfold State.timerTick; split <;> first | (split <;> simp) | simp
@[simp] theorem State.timerTick_latA (s : State) : (s.timerTick).latA = s.latA := by unfold State.timerTick; split <;> first | (split <;> simp) | simp
@[simp] theorem State.timerTick_trisA (s : State) : (s.timerTick).trisA = s.trisA := by unfold State.timerTick; split <;> first | (split <;> simp) | simp
@[simp] theorem State.timerTick_latB (s : State) : (s.timerTick).latB = s.latB := by unfold State.timerTick; split <;> first | (split <;> simp) | simp
@[simp] theorem State.timerTick_trisB (s : State) : (s.timerTick).trisB = s.trisB := by unfold State.timerTick; split <;> first | (split <;> simp) | simp
@[simp] theorem State.timerTick_eedata (s : State) : (s.timerTick).eedata = s.eedata := by unfold State.timerTick; split <;> first | (split <;> simp) | simp
@[simp] theorem State.timerTick_eeadr (s : State) : (s.timerTick).eeadr = s.eeadr := by unfold State.timerTick; split <;> first | (split <;> simp) | simp
@[simp] theorem State.timerTick_eecon1 (s : State) : (s.timerTick).eecon1 = s.eecon1 := by unfold State.timerTick; split <;> first | (split <;> simp) | simp
@[simp] theorem State.timerTick_ram (s : State) : (s.timerTick).ram = s.ram := by unfold State.timerTick; split <;> first | (split <;> simp) | simp
@[simp] theorem State.timerTick_eeprom (s : State) : (s.timerTick).eeprom = s.eeprom := by unfold State.timerTick; split <;> first | (split <;> simp) | simp
@[simp] theorem State.timerTick_wdt (s : State) : (s.timerTick).wdt = s.wdt := by unfold State.timerTick; split <;> first | (split <;> simp) | simp
@[simp] theorem State.timerTick_asleep (s : State) : (s.timerTick).asleep = s.asleep := by unfold State.timerTick; split <;> first | (split <;> simp) | simp
@[simp] theorem State.timerTick_t0Inhibit (s : State) : (s.timerTick).t0Inhibit = s.t0Inhibit := by unfold State.timerTick; split <;> first | (split <;> simp) | simp
@[simp] theorem State.timerTick_rbLast (s : State) : (s.timerTick).rbLast = s.rbLast := by unfold State.timerTick; split <;> first | (split <;> simp) | simp
@[simp] theorem State.timerTick_pinA (s : State) : (s.timerTick).pinA = s.pinA := by unfold State.timerTick; split <;> first | (split <;> simp) | simp
@[simp] theorem State.timerTick_pinB (s : State) : (s.timerTick).pinB = s.pinB := by unfold State.timerTick; split <;> first | (split <;> simp) | simp
@[simp] theorem State.timerTick_pinMclr (s : State) : (s.timerTick).pinMclr = s.pinMclr := by unfold State.timerTick; split <;> first | (split <;> simp) | simp
@[simp] theorem State.timerTick_env (s : State) : (s.timerTick).env = s.env := by unfold State.timerTick; split <;> first | (split <;> simp) | simp
@[simp] theorem State.timerTick_unwritten (s : State) : (s.timerTick).unwritten = s.unwritten := by unfold State.timerTick; split <;> first | (split <;> simp) | simp
@[simp] theorem State.timerTick_resets (s : State) : (s.timerTick).resets = s.resets := by unfold State.timerTick; split <;> first | (split <;> simp) | simp
@[simp] theorem State.timerTick_cyc (s : State) : (s.timerTick).cyc = s.cyc := by unfold State.timerTick; split <;> first | (split <;> simp) | simp

/-! ### `State.tick` changes what a tick changes -/

@[simp] theorem State.tick_cfg (s : State) : (s.tick).cfg = s.cfg := by unfold State.tick; split <;> simp
@[simp] theorem State.tick_prog (s : State) : (s.tick).prog = s.prog := by unfold State.tick; split <;> simp
@[simp] theorem State.tick_w (s : State) : (s.tick).w = s.w := by unfold State.tick; split <;> simp
@[simp] theorem State.tick_pc (s : State) : (s.tick).pc = s.pc := by unfold State.tick; split <;> simp
@[simp] theorem State.tick_pclath (s : State) : (s.tick).pclath = s.pclath := by unfold State.tick; split <;> simp
@[simp] theorem State.tick_stack (s : State) : (s.tick).stack = s.stack := by unfold State.tick; split <;> simp
@[simp] theorem State.tick_sp (s : State) : (s.tick).sp = s.sp := by unfold State.tick; split <;> simp
@[simp] theorem State.tick_stackPtr (s : State) : (s.tick).stackPtr = s.stackPtr := by unfold State.tick; split <;> simp
@[simp] theorem State.tick_status (s : State) : (s.tick).status = s.status := by unfold State.tick; split <;> simp
@[simp] theorem State.tick_fsr (s : State) : (s.tick).fsr = s.fsr := by unfold State.tick; split <;> simp
@[simp] theorem State.tick_optionReg (s : State) : (s.tick).optionReg = s.optionReg := by unfold State.tick; split <;> simp
@[simp] theorem State.tick_latA (s : State) : (s.tick).latA = s.latA := by unfold State.tick; split <;> simp
@[simp] theorem State.tick_trisA (s : State) : (s.tick).trisA = s.trisA := by unfold State.tick; split <;> simp
@[simp] theorem State.tick_latB (s : State) : (s.tick).latB = s.latB := by unfold State.tick; split <;> simp
@[simp] theorem State.tick_trisB (s : State) : (s.tick).trisB = s.trisB := by unfold State.tick; split <;> simp
@[simp] theorem State.tick_eedata (s : State) : (s.tick).eedata = s.eedata := by unfold State.tick; split <;> simp
@[simp] theorem State.tick_eeadr (s : State) : (s.tick).eeadr = s.eeadr := by unfold State.tick; split <;> simp
@[simp] theorem State.tick_eecon1 (s : State) : (s.tick).eecon1 = s.eecon1 := by unfold State.tick; split <;> simp
@[simp] theorem State.tick_ram (s : State) : (s.tick).ram = s.ram := by unfold State.tick; split <;> simp
@[simp] theorem State.tick_eeprom (s : State) : (s.tick).eeprom = s.eeprom := by unfold State.tick; split <;> simp
@[simp] theorem State.tick_wdt (s : State) : (s.tick).wdt = s.wdt := by unfold State.tick; split <;> simp
@[simp] theorem State.tick_asleep (s : State) : (s.tick).asleep = s.asleep := by unfold State.tick; split <;> simp
@[simp] theorem State.tick_t0Inhibit (s : State) : (s.tick).t0Inhibit = s.t0Inhibit := by unfold State.tick; split <;> simp
@[simp] theorem State.tick_rbLast (s : State) : (s.tick).rbLast = s.rbLast := by unfold State.tick; split <;> simp
@[simp] theorem State.tick_pinA (s : State) : (s.tick).pinA = s.pinA := by unfold State.tick; split <;> simp
@[simp] theorem State.tick_pinB (s : State) : (s.tick).pinB = s.pinB := by unfold State.tick; split <;> simp
@[simp] theorem State.tick_pinMclr (s : State) : (s.tick).pinMclr = s.pinMclr := by unfold State.tick; split <;> simp
@[simp] theorem State.tick_env (s : State) : (s.tick).env = s.env := by unfold State.tick; split <;> simp
@[simp] theorem State.tick_unwritten (s : State) : (s.tick).unwritten = s.unwritten := by unfold State.tick; split <;> simp
@[simp] theorem State.tick_resets (s : State) : (s.tick).resets = s.resets := by unfold State.tick; split <;> simp
@[simp] theorem State.tick_cyc (s : State) : (s.tick).cyc = s.cyc := by unfold State.tick; split <;> simp

/-! ### `State.oneCycle` also changes the inhibit -/

@[simp] theorem State.oneCycle_cfg (s : State) : (s.oneCycle).cfg = s.cfg := by unfold State.oneCycle; split <;> first | rfl | (split <;> simp)
@[simp] theorem State.oneCycle_prog (s : State) : (s.oneCycle).prog = s.prog := by unfold State.oneCycle; split <;> first | rfl | (split <;> simp)
@[simp] theorem State.oneCycle_w (s : State) : (s.oneCycle).w = s.w := by unfold State.oneCycle; split <;> first | rfl | (split <;> simp)
@[simp] theorem State.oneCycle_pc (s : State) : (s.oneCycle).pc = s.pc := by unfold State.oneCycle; split <;> first | rfl | (split <;> simp)
@[simp] theorem State.oneCycle_pclath (s : State) : (s.oneCycle).pclath = s.pclath := by unfold State.oneCycle; split <;> first | rfl | (split <;> simp)
@[simp] theorem State.oneCycle_stack (s : State) : (s.oneCycle).stack = s.stack := by unfold State.oneCycle; split <;> first | rfl | (split <;> simp)
@[simp] theorem State.oneCycle_sp (s : State) : (s.oneCycle).sp = s.sp := by unfold State.oneCycle; split <;> first | rfl | (split <;> simp)
@[simp] theorem State.oneCycle_stackPtr (s : State) : (s.oneCycle).stackPtr = s.stackPtr := by unfold State.oneCycle; split <;> first | rfl | (split <;> simp)
@[simp] theorem State.oneCycle_status (s : State) : (s.oneCycle).status = s.status := by unfold State.oneCycle; split <;> first | rfl | (split <;> simp)
@[simp] theorem State.oneCycle_fsr (s : State) : (s.oneCycle).fsr = s.fsr := by unfold State.oneCycle; split <;> first | rfl | (split <;> simp)
@[simp] theorem State.oneCycle_optionReg (s : State) : (s.oneCycle).optionReg = s.optionReg := by unfold State.oneCycle; split <;> first | rfl | (split <;> simp)
@[simp] theorem State.oneCycle_latA (s : State) : (s.oneCycle).latA = s.latA := by unfold State.oneCycle; split <;> first | rfl | (split <;> simp)
@[simp] theorem State.oneCycle_trisA (s : State) : (s.oneCycle).trisA = s.trisA := by unfold State.oneCycle; split <;> first | rfl | (split <;> simp)
@[simp] theorem State.oneCycle_latB (s : State) : (s.oneCycle).latB = s.latB := by unfold State.oneCycle; split <;> first | rfl | (split <;> simp)
@[simp] theorem State.oneCycle_trisB (s : State) : (s.oneCycle).trisB = s.trisB := by unfold State.oneCycle; split <;> first | rfl | (split <;> simp)
@[simp] theorem State.oneCycle_eedata (s : State) : (s.oneCycle).eedata = s.eedata := by unfold State.oneCycle; split <;> first | rfl | (split <;> simp)
@[simp] theorem State.oneCycle_eeadr (s : State) : (s.oneCycle).eeadr = s.eeadr := by unfold State.oneCycle; split <;> first | rfl | (split <;> simp)
@[simp] theorem State.oneCycle_eecon1 (s : State) : (s.oneCycle).eecon1 = s.eecon1 := by unfold State.oneCycle; split <;> first | rfl | (split <;> simp)
@[simp] theorem State.oneCycle_ram (s : State) : (s.oneCycle).ram = s.ram := by unfold State.oneCycle; split <;> first | rfl | (split <;> simp)
@[simp] theorem State.oneCycle_eeprom (s : State) : (s.oneCycle).eeprom = s.eeprom := by unfold State.oneCycle; split <;> first | rfl | (split <;> simp)
@[simp] theorem State.oneCycle_wdt (s : State) : (s.oneCycle).wdt = s.wdt := by unfold State.oneCycle; split <;> first | rfl | (split <;> simp)
@[simp] theorem State.oneCycle_asleep (s : State) : (s.oneCycle).asleep = s.asleep := by unfold State.oneCycle; split <;> first | rfl | (split <;> simp)
@[simp] theorem State.oneCycle_rbLast (s : State) : (s.oneCycle).rbLast = s.rbLast := by unfold State.oneCycle; split <;> first | rfl | (split <;> simp)
@[simp] theorem State.oneCycle_pinA (s : State) : (s.oneCycle).pinA = s.pinA := by unfold State.oneCycle; split <;> first | rfl | (split <;> simp)
@[simp] theorem State.oneCycle_pinB (s : State) : (s.oneCycle).pinB = s.pinB := by unfold State.oneCycle; split <;> first | rfl | (split <;> simp)
@[simp] theorem State.oneCycle_pinMclr (s : State) : (s.oneCycle).pinMclr = s.pinMclr := by unfold State.oneCycle; split <;> first | rfl | (split <;> simp)
@[simp] theorem State.oneCycle_env (s : State) : (s.oneCycle).env = s.env := by unfold State.oneCycle; split <;> first | rfl | (split <;> simp)
@[simp] theorem State.oneCycle_unwritten (s : State) : (s.oneCycle).unwritten = s.unwritten := by unfold State.oneCycle; split <;> first | rfl | (split <;> simp)
@[simp] theorem State.oneCycle_resets (s : State) : (s.oneCycle).resets = s.resets := by unfold State.oneCycle; split <;> first | rfl | (split <;> simp)
@[simp] theorem State.oneCycle_cyc (s : State) : (s.oneCycle).cyc = s.cyc := by unfold State.oneCycle; split <;> first | rfl | (split <;> simp)

/-! ### `State.cycles` changes what its cycles change -/

@[simp] theorem State.cycles_cfg (n : Nat) (s : State) : (State.cycles n s).cfg = s.cfg := by
  induction n generalizing s with
  | zero => rfl
  | succ n ih => simp [State.cycles, ih]
@[simp] theorem State.cycles_prog (n : Nat) (s : State) : (State.cycles n s).prog = s.prog := by
  induction n generalizing s with
  | zero => rfl
  | succ n ih => simp [State.cycles, ih]
@[simp] theorem State.cycles_w (n : Nat) (s : State) : (State.cycles n s).w = s.w := by
  induction n generalizing s with
  | zero => rfl
  | succ n ih => simp [State.cycles, ih]
@[simp] theorem State.cycles_pc (n : Nat) (s : State) : (State.cycles n s).pc = s.pc := by
  induction n generalizing s with
  | zero => rfl
  | succ n ih => simp [State.cycles, ih]
@[simp] theorem State.cycles_pclath (n : Nat) (s : State) : (State.cycles n s).pclath = s.pclath := by
  induction n generalizing s with
  | zero => rfl
  | succ n ih => simp [State.cycles, ih]
@[simp] theorem State.cycles_stack (n : Nat) (s : State) : (State.cycles n s).stack = s.stack := by
  induction n generalizing s with
  | zero => rfl
  | succ n ih => simp [State.cycles, ih]
@[simp] theorem State.cycles_sp (n : Nat) (s : State) : (State.cycles n s).sp = s.sp := by
  induction n generalizing s with
  | zero => rfl
  | succ n ih => simp [State.cycles, ih]
@[simp] theorem State.cycles_stackPtr (n : Nat) (s : State) : (State.cycles n s).stackPtr = s.stackPtr := by
  induction n generalizing s with
  | zero => rfl
  | succ n ih => simp [State.cycles, ih]
@[simp] theorem State.cycles_status (n : Nat) (s : State) : (State.cycles n s).status = s.status := by
  induction n generalizing s with
  | zero => rfl
  | succ n ih => simp [State.cycles, ih]
@[simp] theorem State.cycles_fsr (n : Nat) (s : State) : (State.cycles n s).fsr = s.fsr := by
  induction n generalizing s with
  | zero => rfl
  | succ n ih => simp [State.cycles, ih]
@[simp] theorem State.cycles_optionReg (n : Nat) (s : State) : (State.cycles n s).optionReg = s.optionReg := by
  induction n generalizing s with
  | zero => rfl
  | succ n ih => simp [State.cycles, ih]
@[simp] theorem State.cycles_latA (n : Nat) (s : State) : (State.cycles n s).latA = s.latA := by
  induction n generalizing s with
  | zero => rfl
  | succ n ih => simp [State.cycles, ih]
@[simp] theorem State.cycles_trisA (n : Nat) (s : State) : (State.cycles n s).trisA = s.trisA := by
  induction n generalizing s with
  | zero => rfl
  | succ n ih => simp [State.cycles, ih]
@[simp] theorem State.cycles_latB (n : Nat) (s : State) : (State.cycles n s).latB = s.latB := by
  induction n generalizing s with
  | zero => rfl
  | succ n ih => simp [State.cycles, ih]
@[simp] theorem State.cycles_trisB (n : Nat) (s : State) : (State.cycles n s).trisB = s.trisB := by
  induction n generalizing s with
  | zero => rfl
  | succ n ih => simp [State.cycles, ih]
@[simp] theorem State.cycles_eedata (n : Nat) (s : State) : (State.cycles n s).eedata = s.eedata := by
  induction n generalizing s with
  | zero => rfl
  | succ n ih => simp [State.cycles, ih]
@[simp] theorem State.cycles_eeadr (n : Nat) (s : State) : (State.cycles n s).eeadr = s.eeadr := by
  induction n generalizing s with
  | zero => rfl
  | succ n ih => simp [State.cycles, ih]
@[simp] theorem State.cycles_eecon1 (n : Nat) (s : State) : (State.cycles n s).eecon1 = s.eecon1 := by
  induction n generalizing s with
  | zero => rfl
  | succ n ih => simp [State.cycles, ih]
@[simp] theorem State.cycles_ram (n : Nat) (s : State) : (State.cycles n s).ram = s.ram := by
  induction n generalizing s with
  | zero => rfl
  | succ n ih => simp [State.cycles, ih]
@[simp] theorem State.cycles_eeprom (n : Nat) (s : State) : (State.cycles n s).eeprom = s.eeprom := by
  induction n generalizing s with
  | zero => rfl
  | succ n ih => simp [State.cycles, ih]
@[simp] theorem State.cycles_wdt (n : Nat) (s : State) : (State.cycles n s).wdt = s.wdt := by
  induction n generalizing s with
  | zero => rfl
  | succ n ih => simp [State.cycles, ih]
@[simp] theorem State.cycles_asleep (n : Nat) (s : State) : (State.cycles n s).asleep = s.asleep := by
  induction n generalizing s with
  | zero => rfl
  | succ n ih => simp [State.cycles, ih]
@[simp] theorem State.cycles_rbLast (n : Nat) (s : State) : (State.cycles n s).rbLast = s.rbLast := by
  induction n generalizing s with
  | zero => rfl
  | succ n ih => simp [State.cycles, ih]
@[simp] theorem State.cycles_pinA (n : Nat) (s : State) : (State.cycles n s).pinA = s.pinA := by
  induction n generalizing s with
  | zero => rfl
  | succ n ih => simp [State.cycles, ih]
@[simp] theorem State.cycles_pinB (n : Nat) (s : State) : (State.cycles n s).pinB = s.pinB := by
  induction n generalizing s with
  | zero => rfl
  | succ n ih => simp [State.cycles, ih]
@[simp] theorem State.cycles_pinMclr (n : Nat) (s : State) : (State.cycles n s).pinMclr = s.pinMclr := by
  induction n generalizing s with
  | zero => rfl
  | succ n ih => simp [State.cycles, ih]
@[simp] theorem State.cycles_env (n : Nat) (s : State) : (State.cycles n s).env = s.env := by
  induction n generalizing s with
  | zero => rfl
  | succ n ih => simp [State.cycles, ih]
@[simp] theorem State.cycles_unwritten (n : Nat) (s : State) : (State.cycles n s).unwritten = s.unwritten := by
  induction n generalizing s with
  | zero => rfl
  | succ n ih => simp [State.cycles, ih]
@[simp] theorem State.cycles_resets (n : Nat) (s : State) : (State.cycles n s).resets = s.resets := by
  induction n generalizing s with
  | zero => rfl
  | succ n ih => simp [State.cycles, ih]
@[simp] theorem State.cycles_cyc (n : Nat) (s : State) : (State.cycles n s).cyc = s.cyc := by
  induction n generalizing s with
  | zero => rfl
  | succ n ih => simp [State.cycles, ih]

/-! ### `State.runCycles` changes what its cycles change -/

@[simp] theorem State.runCycles_cfg (s : State) : (s.runCycles).cfg = s.cfg := by simp [State.runCycles]
@[simp] theorem State.runCycles_prog (s : State) : (s.runCycles).prog = s.prog := by simp [State.runCycles]
@[simp] theorem State.runCycles_w (s : State) : (s.runCycles).w = s.w := by simp [State.runCycles]
@[simp] theorem State.runCycles_pc (s : State) : (s.runCycles).pc = s.pc := by simp [State.runCycles]
@[simp] theorem State.runCycles_pclath (s : State) : (s.runCycles).pclath = s.pclath := by simp [State.runCycles]
@[simp] theorem State.runCycles_stack (s : State) : (s.runCycles).stack = s.stack := by simp [State.runCycles]
@[simp] theorem State.runCycles_sp (s : State) : (s.runCycles).sp = s.sp := by simp [State.runCycles]
@[simp] theorem State.runCycles_stackPtr (s : State) : (s.runCycles).stackPtr = s.stackPtr := by simp [State.runCycles]
@[simp] theorem State.runCycles_status (s : State) : (s.runCycles).status = s.status := by simp [State.runCycles]
@[simp] theorem State.runCycles_fsr (s : State) : (s.runCycles).fsr = s.fsr := by simp [State.runCycles]
@[simp] theorem State.runCycles_optionReg (s : State) : (s.runCycles).optionReg = s.optionReg := by simp [State.runCycles]
@[simp] theorem State.runCycles_latA (s : State) : (s.runCycles).latA = s.latA := by simp [State.runCycles]
@[simp] theorem State.runCycles_trisA (s : State) : (s.runCycles).trisA = s.trisA := by simp [State.runCycles]
@[simp] theorem State.runCycles_latB (s : State) : (s.runCycles).latB = s.latB := by simp [State.runCycles]
@[simp] theorem State.runCycles_trisB (s : State) : (s.runCycles).trisB = s.trisB := by simp [State.runCycles]
@[simp] theorem State.runCycles_eedata (s : State) : (s.runCycles).eedata = s.eedata := by simp [State.runCycles]
@[simp] theorem State.runCycles_eeadr (s : State) : (s.runCycles).eeadr = s.eeadr := by simp [State.runCycles]
@[simp] theorem State.runCycles_eecon1 (s : State) : (s.runCycles).eecon1 = s.eecon1 := by simp [State.runCycles]
@[simp] theorem State.runCycles_ram (s : State) : (s.runCycles).ram = s.ram := by simp [State.runCycles]
@[simp] theorem State.runCycles_eeprom (s : State) : (s.runCycles).eeprom = s.eeprom := by simp [State.runCycles]
@[simp] theorem State.runCycles_wdt (s : State) : (s.runCycles).wdt = s.wdt := by simp [State.runCycles]
@[simp] theorem State.runCycles_asleep (s : State) : (s.runCycles).asleep = s.asleep := by simp [State.runCycles]
@[simp] theorem State.runCycles_rbLast (s : State) : (s.runCycles).rbLast = s.rbLast := by simp [State.runCycles]
@[simp] theorem State.runCycles_pinA (s : State) : (s.runCycles).pinA = s.pinA := by simp [State.runCycles]
@[simp] theorem State.runCycles_pinB (s : State) : (s.runCycles).pinB = s.pinB := by simp [State.runCycles]
@[simp] theorem State.runCycles_pinMclr (s : State) : (s.runCycles).pinMclr = s.pinMclr := by simp [State.runCycles]
@[simp] theorem State.runCycles_env (s : State) : (s.runCycles).env = s.env := by simp [State.runCycles]
@[simp] theorem State.runCycles_unwritten (s : State) : (s.runCycles).unwritten = s.unwritten := by simp [State.runCycles]
@[simp] theorem State.runCycles_resets (s : State) : (s.runCycles).resets = s.resets := by simp [State.runCycles]
@[simp] theorem State.runCycles_cyc (s : State) : (s.runCycles).cyc = s.cyc := by simp [State.runCycles]

/-! ### What the cycles do to INTCON: T0IF can be set, nothing else (R223) -/

theorem setBit_t0if : ∀ b : Byte, setBit 2 true b = b ||| 0x04 := by decide

theorem State.timerInc_intcon (s : State) :
    s.timerInc.intcon = s.intcon ∨ s.timerInc.intcon = s.intcon ||| 0x04 := by
  simp only [State.timerInc]
  split
  · exact .inr (setBit_t0if _)
  · exact .inl rfl

theorem State.tick_intcon (s : State) :
    s.tick.intcon = s.intcon ∨ s.tick.intcon = s.intcon ||| 0x04 := by
  unfold State.tick State.timerTick
  split
  · split
    · exact s.timerInc_intcon
    · split
      · exact s.prescale.timerInc_intcon
      · exact .inl rfl
  · exact .inl rfl

theorem State.oneCycle_intcon (s : State) :
    s.oneCycle.intcon = s.intcon ∨ s.oneCycle.intcon = s.intcon ||| 0x04 := by
  unfold State.oneCycle
  split
  · split
    · exact .inl rfl
    · exact s.tick_intcon
  · exact .inl rfl
  · exact .inl rfl

theorem State.cycles_intcon (n : Nat) (s : State) :
    (State.cycles n s).intcon = s.intcon ∨ (State.cycles n s).intcon = s.intcon ||| 0x04 := by
  induction n generalizing s with
  | zero => exact .inl rfl
  | succ n ih =>
    have idem : ∀ b : Byte, b ||| 0x04 ||| 0x04 = b ||| 0x04 := by decide
    rw [State.cycles]
    rcases s.oneCycle_intcon with h | h <;> rcases ih s.oneCycle with k | k <;> rw [h] at k
    · exact .inl k
    · exact .inr k
    · exact .inr k
    · exact .inr (k.trans (idem _))

end Sys2Proof.Machine
end

