-- ==== Sys2Proof/Laws/Environment.lean ====
section
/-! SUPPORT. What the beginning of a step can do: one lemma for each action of the environment, one for
the decision at a boundary, and the inversion of a step. -/

namespace Sys2Proof.Machine

/-- The fields an action of the environment can change. -/
theorem EnvOutcome.event_state (o : EnvOutcome) (e : EnvEvent) :
    ∃ pinA pinB pinMclr intcon tmr0 prescaler, (o.event e).state = { o.state with
      pinA := pinA, pinB := pinB, pinMclr := pinMclr, intcon := intcon, tmr0 := tmr0,
      prescaler := prescaler } := by
  cases e with
  | pinsA v => exact ⟨_, _, _, _, _, _, rfl⟩
  | pinsB v => exact ⟨_, _, _, _, _, _, rfl⟩
  | mclr high => cases high <;> exact ⟨_, _, _, _, _, _, rfl⟩
  | t0Edge rising =>
    simp only [EnvOutcome.event]
    split
    · simp only [State.tick, State.timerTick, State.timerInc, State.prescale]
      split
      · split
        · exact ⟨_, _, _, _, _, _, rfl⟩
        · split <;> exact ⟨_, _, _, _, _, _, rfl⟩
      · exact ⟨_, _, _, _, _, _, rfl⟩
    · exact ⟨_, _, _, _, _, _, rfl⟩
  | wdtTimeout =>
    simp only [EnvOutcome.event]
    split
    · exact ⟨_, _, _, _, _, _, rfl⟩
    · split <;> exact ⟨_, _, _, _, _, _, rfl⟩
  | powerOn => exact ⟨_, _, _, _, _, _, rfl⟩

/-- What the actions of one boundary can change together: the same fields. -/
theorem EnvOutcome.events_state (l : List EnvEvent) (o : EnvOutcome) :
    ∃ pinA pinB pinMclr intcon tmr0 prescaler, (l.foldl EnvOutcome.event o).state = { o.state with
      pinA := pinA, pinB := pinB, pinMclr := pinMclr, intcon := intcon, tmr0 := tmr0,
      prescaler := prescaler } := by
  induction l generalizing o with
  | nil => exact ⟨_, _, _, _, _, _, rfl⟩
  | cons e l ih =>
    obtain ⟨_, _, _, _, _, _, h⟩ := ih (o.event e)
    obtain ⟨_, _, _, _, _, _, h'⟩ := EnvOutcome.event_state o e
    exact ⟨_, _, _, _, _, _, by rw [List.foldl_cons, h, h']⟩

/-- The reset requested after an action: an earlier request stands, and only MCLR, the watchdog and a
power-on make one (assumption 9). -/
theorem EnvOutcome.event_reset (o : EnvOutcome) (e : EnvEvent) :
    (o.event e).reset = o.reset.or (match e with
      | .mclr false => some .mclr
      | .wdtTimeout => if o.state.cfg.wdtEnabled && !o.state.asleep then some .watchdog else none
      | .powerOn => some .powerOn
      | _ => none) := by
  cases e with
  | mclr high => cases high <;> simp [EnvOutcome.event, EnvOutcome.request]
  | t0Edge rising => simp only [EnvOutcome.event]; split <;> simp
  | wdtTimeout =>
    simp only [EnvOutcome.event, EnvOutcome.request]
    cases o.state.cfg.wdtEnabled <;> cases o.state.asleep <;> simp
  | powerOn => rfl
  | _ => simp [EnvOutcome.event]

@[simp] theorem EnvOutcome.heldInReset_state (o : EnvOutcome) : o.heldInReset.state = o.state := by
  unfold EnvOutcome.heldInReset EnvOutcome.request
  split <;> rfl

@[simp] theorem EnvOutcome.heldInReset_wdtWake (o : EnvOutcome) :
    o.heldInReset.wdtWake = o.wdtWake := by
  unfold EnvOutcome.heldInReset EnvOutcome.request
  split <;> rfl

/-- The level on MCLR requests a reset when it is low and nothing else did (R231, R251). -/
theorem EnvOutcome.heldInReset_reset (o : EnvOutcome) :
    o.heldInReset.reset = if o.state.pinMclr then o.reset else o.reset.or (some .mclr) := by
  unfold EnvOutcome.heldInReset EnvOutcome.request
  split <;> rfl

/-- What every kind of reset leaves (R251, R252, D8), the registers that depend on the kind apart. -/
theorem State.resetBy_common (s : State) (k : ResetKind) :
    let t := s.resetBy k
    t.pc = Config.resetVector ∧ t.asleep = false ∧ t.t0Inhibit = 0 ∧ t.sp = 0 ∧ t.stackPtr = 0
    ∧ t.pclath = 0 ∧ t.optionReg = 0xFF ∧ t.trisA = 0x1F ∧ t.trisB = 0xFF ∧ t.wdt = 0
    ∧ t.prescaler = 0 ∧ t.cyc = 0 ∧ t.resets = s.resets + 1
    ∧ t.cfg = s.cfg ∧ t.prog = s.prog ∧ t.eeprom = s.eeprom ∧ t.env = s.env
    ∧ t.pinA = s.pinA ∧ t.pinB = s.pinB ∧ t.pinMclr = s.pinMclr := by
  cases k <;> exact ⟨rfl, rfl, rfl, rfl, rfl, rfl, rfl, rfl, rfl, rfl, rfl, rfl, rfl, rfl, rfl, rfl,
    rfl, rfl, rfl, rfl⟩

/-- The port change detector can set RBIF and mark it. -/
theorem State.portChange_state (s : State) :
    ∃ intcon unwritten, s.portChange = { s with intcon := intcon, unwritten := unwritten } := by
  unfold State.portChange
  split <;> exact ⟨_, _, rfl⟩

@[simp] theorem State.portChange_pinMclr (s : State) : s.portChange.pinMclr = s.pinMclr := by
  unfold State.portChange
  split <;> rfl

theorem State.portChange_unwritten (s : State) :
    s.portChange.unwritten = s.unwritten ∨ s.portChange.unwritten = s.marksAfter [.rbif] := by
  unfold State.portChange
  split
  · exact .inl rfl
  · exact .inr rfl

/-- What the events of a boundary can change, and that they use up the head of the queue. -/
theorem boundaryEvents_state (s : State) :
    ∃ pinA pinB pinMclr intcon tmr0 prescaler, (boundaryEvents s).state = { s with
      pinA := pinA, pinB := pinB, pinMclr := pinMclr, intcon := intcon, tmr0 := tmr0,
      prescaler := prescaler, env := s.env.tail } :=
  EnvOutcome.events_state (s.env.headD []) ⟨{ s with env := s.env.tail }, none, false⟩

theorem environment_state (s : State) :
    (environment s).state = (boundaryEvents s).state.portChange := by
  simp [environment]

/-- The reset a boundary finds: the one the events requested, else one on MCLR while its level is low
(R231, R251). -/
theorem environment_reset (s : State) :
    (environment s).reset = if (boundaryEvents s).state.pinMclr then (boundaryEvents s).reset
      else (boundaryEvents s).reset.or (some .mclr) :=
  EnvOutcome.heldInReset_reset (boundaryEvents s)

/-- With no event and no request the environment leaves a quiet state as it is (R256). -/
theorem environment_of_quiet {s : State} (h : s.quiet = true) :
    environment s = ⟨s, none, false⟩ := by
  simp only [State.quiet, Bool.and_eq_true, List.isEmpty_iff, beq_iff_eq] at h
  obtain ⟨⟨he, hm⟩, hp⟩ := h
  have hs : { s with env := s.env.tail } = s := by
    have : s.env.tail = s.env := by simp [he]
    rw [this]
  have hl : s.env.headD [] = [] := by simp [he]
  unfold environment boundaryEvents
  rw [hs, hl]
  simp [EnvOutcome.heldInReset, hm, State.portChange, hp]

/-- What a boundary decides (R214, R232). -/
theorem boundaryOf_cases (o : EnvOutcome) :
    (∃ k, o.reset = some k ∧ boundaryOf o = .settled (o.state.resetBy k))
    ∨ (o.reset = none ∧ o.state.asleep = true ∧ (o.wdtWake || o.state.wakePending) = true
        ∧ boundaryOf o = .run (o.state.wakeUp o.wdtWake))
    ∨ (o.reset = none ∧ o.state.asleep = true ∧ (o.wdtWake || o.state.wakePending) = false
        ∧ boundaryOf o = .settled { o.state with cyc := 0 })
    ∨ (o.reset = none ∧ o.state.asleep = false ∧ (o.state.gie && o.state.pending) = true
        ∧ boundaryOf o = .enter o.state)
    ∨ (o.reset = none ∧ o.state.asleep = false ∧ (o.state.gie && o.state.pending) = false
        ∧ boundaryOf o = .run o.state) := by
  unfold boundaryOf
  cases hr : o.reset with
  | some k => exact .inl ⟨k, rfl, rfl⟩
  | none =>
    cases ha : o.state.asleep with
    | true =>
      cases hw : (o.wdtWake || o.state.wakePending) with
      | true => exact .inr (.inl ⟨rfl, rfl, rfl, by simp⟩)
      | false => exact .inr (.inr (.inl ⟨rfl, rfl, rfl, by simp⟩))
    | false =>
      cases hp : (o.state.gie && o.state.pending) with
      | true => exact .inr (.inr (.inr (.inl ⟨rfl, rfl, rfl, by simp⟩)))
      | false => exact .inr (.inr (.inr (.inr ⟨rfl, rfl, rfl, by simp⟩)))

/-- An awake core with nothing happening outside takes a pending interrupt or runs on. -/
theorem boundary_of_quiet {s : State} (hq : s.quiet = true) (ha : s.asleep = false) :
    boundary s = if s.gie && s.pending then .enter s else .run s := by
  unfold boundary
  rw [environment_of_quiet hq]
  simp [boundaryOf, ha]

/-- What a step that answers a next state did (R232). -/
theorem step_next {s t : State} (h : step s = .next t) :
    boundary s = .settled t
    ∨ (∃ e u, boundary s = .enter e ∧ e.interruptEntry = .ok u ∧ t = u.runCycles)
    ∨ (∃ e i u, boundary s = .run e ∧ e.fetch = .ok i ∧ exec i e = .next u ∧ t = u.runCycles) := by
  unfold step at h
  split at h
  · rename_i u hb
    exact .inl (by rw [hb]; simpa using h)
  · rename_i e hb
    split at h
    · simp at h
    · rename_i u hu
      exact .inr (.inl ⟨e, u, hb, hu, by simpa using h.symm⟩)
  · rename_i e hb
    split at h
    · simp at h
    · rename_i i hi
      obtain ⟨u, hu, rfl⟩ := onNext_eq_next.1 h
      exact .inr (.inr ⟨e, i, u, hb, hi, hu, rfl⟩)

/-- A fetch that succeeds read a word of the image and decoded it (R72, R116). -/
theorem State.fetch_ok {s : State} {i : Instr} (h : s.fetch = .ok i) :
    ∃ w, s.prog.read (s.physAddr s.pc) = some w ∧ decode w = .ok i := by
  unfold State.fetch State.progRead at h
  cases hw : s.prog.read (s.physAddr s.pc) with
  | none => simp [hw] at h
  | some w =>
    refine ⟨w, rfl, ?_⟩
    simp only [hw] at h
    cases hd : decode w with
    | error e => simp [hd] at h
    | ok j => simpa [hd] using h

theorem State.fetch_of_decode {s : State} {w : InstrWord} {i : Instr}
    (hw : s.prog.read (s.physAddr s.pc) = some w) (hd : decode w = .ok i) : s.fetch = .ok i := by
  simp [State.fetch, State.progRead, hw, hd]

end Sys2Proof.Machine
end

