-- ==== Sys2Proof/Laws/Exec.lean ====
section
/-! SUPPORT. What an instruction can do, said once: every instruction that answers a next state has
one of nine shapes. The frames of the instructions follow from this lemma. -/

namespace Sys2Proof.Machine

open Sys2Proof.Config (UnknownLoc)

/-- The flags an update writes are those of the instruction's class (R39). -/
def FlagsFit (i : Instr) (u : FlagUpdate) : Prop :=
  (flagClass i ≠ .zdcc → u.dc = none)
  ∧ (flagClass i ≠ .zdcc → flagClass i ≠ .z → u.z = none)
  ∧ (flagClass i ≠ .zdcc → flagClass i ≠ .c → u.c = none)
  ∧ (flagClass i = .none ↔ u.affectsAny = false)

/-- The state in which the destination is written: the hardware PC has moved on, and the register of
the `f` field has been read if the instruction reads it. -/
def AfterOperand (i : Instr) (s q : State) : Prop :=
  q = s.advance ∨ ∃ r, readReg i s = some r ∧ q = s.advance.afterRead r

/-- The result goes to W. -/
def ToW (i : Instr) (s t : State) : Prop :=
  writesW i = true ∧ destReg i s = none ∧ usesStack i = false ∧ ∃ q v u c,
    AfterOperand i s q ∧ FlagsFit i u ∧ t = ((q.setW v).applyFlags u).skipIf c

/-- The result goes to the file register the `f` field names. -/
def ToRegister (i : Instr) (s t : State) : Prop :=
  writesW i = false ∧ usesStack i = false ∧ ∃ q r v u m c,
    AfterOperand i s q ∧ FlagsFit i u ∧ destReg i s = some r ∧ r.isEecon = false
      ∧ (c = true → r ≠ .pcl)
      ∧ t = (((q.storeReg u v r).markWritten m).applyFlags u).skipIf c

/-- The register is read and nothing but a skip follows. -/
def TestOnly (i : Instr) (s t : State) : Prop :=
  writesW i = false ∧ usesStack i = false ∧ destReg i s = none ∧ flagClass i = .none ∧ ∃ r c,
    readReg i s = some r ∧ t = (s.advance.afterRead r).skipIf c

theorem flagsFit_noFlags {i : Instr} (h : flagClass i = .none) : FlagsFit i noFlags := by
  simp [FlagsFit, h, noFlags, FlagUpdate.affectsAny]

theorem flagsFit_z {i : Instr} (h : flagClass i = .z) (v : Byte) : FlagsFit i (zResult v).flags := by
  simp [FlagsFit, h, zResult, FlagUpdate.affectsAny]

theorem flagsFit_zdcc {i : Instr} (h : flagClass i = .zdcc) {z dc c : Bool} :
    FlagsFit i ⟨some z, some dc, some c⟩ := by
  simp [FlagsFit, h, FlagUpdate.affectsAny]

theorem flagsFit_c {i : Instr} (h : flagClass i = .c) {c : Bool} :
    FlagsFit i ⟨none, none, some c⟩ := by
  simp [FlagsFit, h, FlagUpdate.affectsAny]

/-- A byte-oriented instruction with a destination bit has one of the first two shapes. -/
theorem byteOp_shape {mk : Dest → FileField → Instr} {needs : List UnknownLoc}
    {op : Byte → ByteResult} {d : Dest} {f : FileField} {s t : State}
    (h : byteOp needs op d f s = .next t)
    (hw : writesW (mk .w f) = true ∧ writesW (mk .f f) = false)
    (hd : destReg (mk .w f) s = none ∧ destReg (mk .f f) s = some (s.operand f))
    (hr : ∀ d, readReg (mk d f) s = some (s.operand f)) (hs : ∀ d, usesStack (mk d f) = false)
    (hf : ∀ d v, FlagsFit (mk d f) (op v).flags) : ToW (mk d f) s t ∨ ToRegister (mk d f) s t := by
  rcases byteOp_next h with ⟨rfl, rfl⟩ | ⟨rfl, he, rfl⟩
  · exact .inl ⟨hw.1, hd.1, hs _, _, _, _, false, .inr ⟨_, hr _, rfl⟩, hf _ _, rfl⟩
  · exact .inr ⟨hw.2, hs _, _, _, _, _, _, false, .inr ⟨_, hr _, rfl⟩, hf _ _, hd.2, he, by simp, rfl⟩

theorem byteSkipOp_shape {mk : Dest → FileField → Instr} {op : Byte → Byte} {d : Dest}
    {f : FileField} {s t : State} (h : byteSkipOp op d f s = .next t)
    (hw : writesW (mk .w f) = true ∧ writesW (mk .f f) = false)
    (hd : destReg (mk .w f) s = none ∧ destReg (mk .f f) s = some (s.operand f))
    (hr : ∀ d, readReg (mk d f) s = some (s.operand f)) (hs : ∀ d, usesStack (mk d f) = false)
    (hf : ∀ d, flagClass (mk d f) = .none) : ToW (mk d f) s t ∨ ToRegister (mk d f) s t := by
  rcases byteSkipOp_next h with ⟨rfl, rfl⟩ | ⟨rfl, he, hp, rfl⟩
  · exact .inl ⟨hw.1, hd.1, hs _, _, _, _, _, .inr ⟨_, hr _, rfl⟩, flagsFit_noFlags (hf _), rfl⟩
  · exact .inr ⟨hw.2, hs _, _, _, _, _, _, _, .inr ⟨_, hr _, rfl⟩, flagsFit_noFlags (hf _), hd.2, he,
      fun _ => hp, rfl⟩

theorem literalOp_shape {i : Instr} {needs : List UnknownLoc} {x : ByteResult} {s t : State}
    (h : literalOp needs x s = .next t) (hw : writesW i = true) (hd : destReg i s = none)
    (hs : usesStack i = false) (hf : FlagsFit i x.flags) : ToW i s t := by
  obtain ⟨_, rfl⟩ := literalOp_next h
  exact ⟨hw, hd, hs, _, _, _, false, .inl rfl, hf, rfl⟩

theorem byteWriteOp_shape {i : Instr} {needs : List UnknownLoc} {x : ByteResult} {f : FileField}
    {s t : State} (h : byteWriteOp needs x f s = .next t) (hw : writesW i = false)
    (hd : destReg i s = some (s.operand f)) (hs : usesStack i = false) (hf : FlagsFit i x.flags) :
    ToRegister i s t := by
  obtain ⟨he, rfl⟩ := byteWriteOp_next h
  exact ⟨hw, hs, _, _, _, _, _, false, .inl rfl, hf, hd, he, by simp, rfl⟩

theorem bitWriteOp_shape {i : Instr} {v : Bool} {b : BitField} {f : FileField} {s t : State}
    (h : bitWriteOp v b f s = .next t) (hw : writesW i = false)
    (hd : destReg i s = some (s.operand f)) (hr : readReg i s = some (s.operand f))
    (hs : usesStack i = false) (hf : flagClass i = .none) : ToRegister i s t := by
  obtain ⟨he, rfl⟩ := bitWriteOp_next h
  exact ⟨hw, hs, _, _, _, _, _, false, .inr ⟨_, hr, rfl⟩, flagsFit_noFlags hf, hd, he, by simp, rfl⟩

theorem bitTestOp_shape {i : Instr} {v : Bool} {b : BitField} {f : FileField} {s t : State}
    (h : bitTestOp v b f s = .next t) (hw : writesW i = false) (hd : destReg i s = none)
    (hr : readReg i s = some (s.operand f)) (hs : usesStack i = false) (hf : flagClass i = .none) :
    TestOnly i s t :=
  ⟨hw, hs, hd, hf, _, _, hr, bitTestOp_next h⟩

/-! ### One lemma for each instruction that reads or writes W or a file register -/

theorem execAddwf_shape {d : Dest} {f : FileField} {s t : State} (h : execAddwf d f s = .next t) :
    ToW (.addwf d f) s t ∨ ToRegister (.addwf d f) s t :=
  byteOp_shape (mk := .addwf) h ⟨rfl, rfl⟩ ⟨rfl, rfl⟩ (fun _ => rfl) (fun _ => rfl)
    (fun _ _ => flagsFit_zdcc rfl)

theorem execSubwf_shape {d : Dest} {f : FileField} {s t : State} (h : execSubwf d f s = .next t) :
    ToW (.subwf d f) s t ∨ ToRegister (.subwf d f) s t :=
  byteOp_shape (mk := .subwf) h ⟨rfl, rfl⟩ ⟨rfl, rfl⟩ (fun _ => rfl) (fun _ => rfl)
    (fun _ _ => flagsFit_zdcc rfl)

theorem execAndwf_shape {d : Dest} {f : FileField} {s t : State} (h : execAndwf d f s = .next t) :
    ToW (.andwf d f) s t ∨ ToRegister (.andwf d f) s t :=
  byteOp_shape (mk := .andwf) h ⟨rfl, rfl⟩ ⟨rfl, rfl⟩ (fun _ => rfl) (fun _ => rfl)
    (fun _ _ => flagsFit_z rfl _)

theorem execIorwf_shape {d : Dest} {f : FileField} {s t : State} (h : execIorwf d f s = .next t) :
    ToW (.iorwf d f) s t ∨ ToRegister (.iorwf d f) s t :=
  byteOp_shape (mk := .iorwf) h ⟨rfl, rfl⟩ ⟨rfl, rfl⟩ (fun _ => rfl) (fun _ => rfl)
    (fun _ _ => flagsFit_z rfl _)

theorem execXorwf_shape {d : Dest} {f : FileField} {s t : State} (h : execXorwf d f s = .next t) :
    ToW (.xorwf d f) s t ∨ ToRegister (.xorwf d f) s t :=
  byteOp_shape (mk := .xorwf) h ⟨rfl, rfl⟩ ⟨rfl, rfl⟩ (fun _ => rfl) (fun _ => rfl)
    (fun _ _ => flagsFit_z rfl _)

theorem execComf_shape {d : Dest} {f : FileField} {s t : State} (h : execComf d f s = .next t) :
    ToW (.comf d f) s t ∨ ToRegister (.comf d f) s t :=
  byteOp_shape (mk := .comf) h ⟨rfl, rfl⟩ ⟨rfl, rfl⟩ (fun _ => rfl) (fun _ => rfl)
    (fun _ _ => flagsFit_z rfl _)

theorem execDecf_shape {d : Dest} {f : FileField} {s t : State} (h : execDecf d f s = .next t) :
    ToW (.decf d f) s t ∨ ToRegister (.decf d f) s t :=
  byteOp_shape (mk := .decf) h ⟨rfl, rfl⟩ ⟨rfl, rfl⟩ (fun _ => rfl) (fun _ => rfl)
    (fun _ _ => flagsFit_z rfl _)

theorem execIncf_shape {d : Dest} {f : FileField} {s t : State} (h : execIncf d f s = .next t) :
    ToW (.incf d f) s t ∨ ToRegister (.incf d f) s t :=
  byteOp_shape (mk := .incf) h ⟨rfl, rfl⟩ ⟨rfl, rfl⟩ (fun _ => rfl) (fun _ => rfl)
    (fun _ _ => flagsFit_z rfl _)

theorem execMovf_shape {d : Dest} {f : FileField} {s t : State} (h : execMovf d f s = .next t) :
    ToW (.movf d f) s t ∨ ToRegister (.movf d f) s t :=
  byteOp_shape (mk := .movf) h ⟨rfl, rfl⟩ ⟨rfl, rfl⟩ (fun _ => rfl) (fun _ => rfl)
    (fun _ _ => flagsFit_z rfl _)

theorem execRlf_shape {d : Dest} {f : FileField} {s t : State} (h : execRlf d f s = .next t) :
    ToW (.rlf d f) s t ∨ ToRegister (.rlf d f) s t :=
  byteOp_shape (mk := .rlf) h ⟨rfl, rfl⟩ ⟨rfl, rfl⟩ (fun _ => rfl) (fun _ => rfl)
    (fun _ _ => flagsFit_c rfl)

theorem execRrf_shape {d : Dest} {f : FileField} {s t : State} (h : execRrf d f s = .next t) :
    ToW (.rrf d f) s t ∨ ToRegister (.rrf d f) s t :=
  byteOp_shape (mk := .rrf) h ⟨rfl, rfl⟩ ⟨rfl, rfl⟩ (fun _ => rfl) (fun _ => rfl)
    (fun _ _ => flagsFit_c rfl)

theorem execSwapf_shape {d : Dest} {f : FileField} {s t : State} (h : execSwapf d f s = .next t) :
    ToW (.swapf d f) s t ∨ ToRegister (.swapf d f) s t :=
  byteOp_shape (mk := .swapf) h ⟨rfl, rfl⟩ ⟨rfl, rfl⟩ (fun _ => rfl) (fun _ => rfl)
    (fun _ _ => flagsFit_noFlags rfl)

theorem execDecfsz_shape {d : Dest} {f : FileField} {s t : State} (h : execDecfsz d f s = .next t) :
    ToW (.decfsz d f) s t ∨ ToRegister (.decfsz d f) s t :=
  byteSkipOp_shape (mk := .decfsz) h ⟨rfl, rfl⟩ ⟨rfl, rfl⟩ (fun _ => rfl) (fun _ => rfl) (fun _ => rfl)

theorem execIncfsz_shape {d : Dest} {f : FileField} {s t : State} (h : execIncfsz d f s = .next t) :
    ToW (.incfsz d f) s t ∨ ToRegister (.incfsz d f) s t :=
  byteSkipOp_shape (mk := .incfsz) h ⟨rfl, rfl⟩ ⟨rfl, rfl⟩ (fun _ => rfl) (fun _ => rfl) (fun _ => rfl)

/-- Every instruction that answers a next state has one of nine shapes. -/
theorem exec_next {i : Instr} {s t : State} (h : exec i s = .next t) :
    ToW i s t ∨ ToRegister i s t ∨ TestOnly i s t
    ∨ (∃ k, i = .call k ∧ ∃ stack sp ptr, t = { s with
        stack := stack, sp := sp, stackPtr := ptr, pc := s.target k, cyc := 2 })
    ∨ (∃ k, i = .goto k ∧ t = { s with pc := s.target k, cyc := 2 })
    ∨ (i = .retfie ∧ ∃ a sp ptr, t = { s with
        pc := a, sp := sp, stackPtr := ptr, cyc := 2, intcon := setBit 7 true s.intcon })
    ∨ (∃ k, i = .retlw k ∧ ∃ a sp ptr, t = { s.setW k with
        pc := a, sp := sp, stackPtr := ptr, cyc := 2 })
    ∨ (i = .ret ∧ ∃ a sp ptr, t = { s with pc := a, sp := sp, stackPtr := ptr, cyc := 2 })
    ∨ ((i = .nop ∧ t = s.advance)
      ∨ (i = .clrwdt ∧ t = { s.advance.clearWatchdog with status := withToPd true true s.status })
      ∨ (i = .sleep ∧ t = { s.advance.clearWatchdog with
          status := withToPd true false s.status, asleep := true })) := by
  cases i with
  | addlw k => exact .inl (literalOp_shape h rfl rfl rfl (flagsFit_zdcc rfl))
  | andlw k => exact .inl (literalOp_shape h rfl rfl rfl (flagsFit_z rfl _))
  | iorlw k => exact .inl (literalOp_shape h rfl rfl rfl (flagsFit_z rfl _))
  | xorlw k => exact .inl (literalOp_shape h rfl rfl rfl (flagsFit_z rfl _))
  | sublw k => exact .inl (literalOp_shape h rfl rfl rfl (flagsFit_zdcc rfl))
  | movlw k => exact .inl (literalOp_shape h rfl rfl rfl (flagsFit_noFlags rfl))
  | clrw => exact .inl (literalOp_shape h rfl rfl rfl (flagsFit_z rfl _))
  | addwf d f => exact (execAddwf_shape h).imp id .inl
  | subwf d f => exact (execSubwf_shape h).imp id .inl
  | andwf d f => exact (execAndwf_shape h).imp id .inl
  | iorwf d f => exact (execIorwf_shape h).imp id .inl
  | xorwf d f => exact (execXorwf_shape h).imp id .inl
  | comf d f => exact (execComf_shape h).imp id .inl
  | decf d f => exact (execDecf_shape h).imp id .inl
  | incf d f => exact (execIncf_shape h).imp id .inl
  | movf d f => exact (execMovf_shape h).imp id .inl
  | rlf d f => exact (execRlf_shape h).imp id .inl
  | rrf d f => exact (execRrf_shape h).imp id .inl
  | swapf d f => exact (execSwapf_shape h).imp id .inl
  | decfsz d f => exact (execDecfsz_shape h).imp id .inl
  | incfsz d f => exact (execIncfsz_shape h).imp id .inl
  | clrf f => exact .inr (.inl (byteWriteOp_shape h rfl rfl rfl (flagsFit_z rfl _)))
  | movwf f => exact .inr (.inl (byteWriteOp_shape h rfl rfl rfl (flagsFit_noFlags rfl)))
  | bcf b f => exact .inr (.inl (bitWriteOp_shape h rfl rfl rfl rfl rfl))
  | bsf b f => exact .inr (.inl (bitWriteOp_shape h rfl rfl rfl rfl rfl))
  | btfsc b f => exact .inr (.inr (.inl (bitTestOp_shape h rfl rfl rfl rfl rfl)))
  | btfss b f => exact .inr (.inr (.inl (bitTestOp_shape h rfl rfl rfl rfl rfl)))
  | call k => exact .inr (.inr (.inr (.inl ⟨k, rfl, execCall_next h⟩)))
  | goto k =>
    exact .inr (.inr (.inr (.inr (.inl ⟨k, rfl, (Host.Outcome.next.inj h).symm⟩))))
  | retfie =>
    obtain ⟨a, sp, ptr, rfl⟩ := State.interruptReturn_next h
    exact .inr (.inr (.inr (.inr (.inr (.inl ⟨rfl, a, sp, ptr, rfl⟩)))))
  | retlw k =>
    obtain ⟨a, sp, ptr, rfl⟩ := State.popReturn_next h
    exact .inr (.inr (.inr (.inr (.inr (.inr (.inl ⟨k, rfl, a, sp, ptr, rfl⟩))))))
  | ret =>
    obtain ⟨a, sp, ptr, rfl⟩ := State.popReturn_next h
    exact .inr (.inr (.inr (.inr (.inr (.inr (.inr (.inl ⟨rfl, a, sp, ptr, rfl⟩)))))))
  | nop =>
    exact .inr (.inr (.inr (.inr (.inr (.inr (.inr (.inr
      (.inl ⟨rfl, (Host.Outcome.next.inj h).symm⟩))))))))
  | clrwdt =>
    exact .inr (.inr (.inr (.inr (.inr (.inr (.inr (.inr
      (.inr (.inl ⟨rfl, (Host.Outcome.next.inj h).symm⟩)))))))))
  | sleep =>
    exact .inr (.inr (.inr (.inr (.inr (.inr (.inr (.inr
      (.inr (.inr ⟨rfl, (Host.Outcome.next.inj h).symm⟩)))))))))

end Sys2Proof.Machine
end

