-- ==== Sys2Proof/Laws/Memory.lean ====
section
/-! SUPPORT. The laws of memory: a read after a write, other addresses unchanged, and that every
memory operation keeps the canonical form. -/

namespace Sys2Proof.Machine

section Cells

variable {α : Type} (a : Nat) (v : α)

/-- An address below every listed address is not listed. -/
theorem cellsFind_none_of_lt (m : List (Nat × α)) (h : ∀ c ∈ m, a < c.1) : cellsFind a m = none := by
  induction m with
  | nil => rfl
  | cons c m ih =>
    have hc := h c (by simp)
    have : c.1 ≠ a := by omega
    simp [cellsFind, this, ih (fun x hx => h x (by simp [hx]))]

theorem cellsFind_insert_self (m : List (Nat × α)) : cellsFind a (cellsInsert a v m) = some v := by
  induction m with
  | nil => simp [cellsInsert, cellsFind]
  | cons c m ih =>
    unfold cellsInsert
    split
    · simp [cellsFind]
    · split
      · simp [cellsFind]
      · rename_i h
        simp [cellsFind, Ne.symm h, ih]

theorem cellsFind_insert_ne (m : List (Nat × α)) {b : Nat} (h : b ≠ a) :
    cellsFind b (cellsInsert a v m) = cellsFind b m := by
  induction m with
  | nil => simp [cellsInsert, cellsFind, Ne.symm h]
  | cons c m ih =>
    unfold cellsInsert
    split
    · simp [cellsFind, Ne.symm h]
    · split
      · rename_i h2
        subst h2
        simp [cellsFind, Ne.symm h]
      · simp [cellsFind, ih]

theorem cellsFind_erase_self (m : List (Nat × α)) : cellsFind a (cellsErase a m) = none := by
  induction m with
  | nil => rfl
  | cons c m ih =>
    by_cases h : c.1 = a
    · simpa [cellsErase, h] using ih
    · simpa [cellsErase, cellsFind, h] using ih

theorem cellsFind_erase_ne (m : List (Nat × α)) {b : Nat} (h : b ≠ a) :
    cellsFind b (cellsErase a m) = cellsFind b m := by
  induction m with
  | nil => rfl
  | cons c m ih =>
    by_cases hc : c.1 = a
    · have : c.1 ≠ b := by omega
      have hab : a ≠ b := Ne.symm h
      simpa [cellsErase, cellsFind, hc, hab] using ih
    · by_cases hb : c.1 = b
      · simp [cellsErase, cellsFind, hb, h]
      · simpa [cellsErase, cellsFind, hc, hb] using ih

/-- What an insertion lists: the new pair, and old pairs. -/
theorem mem_cellsInsert (m : List (Nat × α)) {c : Nat × α} (h : c ∈ cellsInsert a v m) :
    c = (a, v) ∨ c ∈ m := by
  induction m with
  | nil => simpa [cellsInsert] using h
  | cons d m ih =>
    unfold cellsInsert at h
    split at h
    · simpa using h
    · split at h
      · simp at h
        rcases h with h | h
        · exact .inl h
        · exact .inr (by simp [h])
      · simp at h
        rcases h with h | h
        · exact .inr (by simp [h])
        · rcases ih h with h | h
          · exact .inl h
          · exact .inr (by simp [h])

theorem cellsRise_insert (m : List (Nat × α)) (h : cellsRise m) : cellsRise (cellsInsert a v m) := by
  induction m with
  | nil => simp [cellsInsert, cellsRise]
  | cons c m ih =>
    obtain ⟨h1, h2⟩ := List.pairwise_cons.1 h
    unfold cellsInsert
    split
    · rename_i hlt
      refine List.pairwise_cons.2 ⟨fun x hx => ?_, h⟩
      rcases List.mem_cons.1 hx with rfl | hx
      · exact hlt
      · exact Nat.lt_trans hlt (h1 x hx)
    · split
      · rename_i he
        exact List.pairwise_cons.2 ⟨fun x hx => by simpa [he] using h1 x hx, h2⟩
      · refine List.pairwise_cons.2 ⟨fun x hx => ?_, ih h2⟩
        rcases mem_cellsInsert a v m hx with rfl | hx
        · simp only; omega
        · exact h1 x hx

theorem cellsRise_erase (m : List (Nat × α)) (h : cellsRise m) : cellsRise (cellsErase a m) :=
  List.Pairwise.filter _ h

theorem mem_of_mem_cellsErase (m : List (Nat × α)) {c : Nat × α} (h : c ∈ cellsErase a m) :
    c ∈ m := (List.mem_filter.1 h).1

end Cells

/-! ### Byte memory -/

theorem Memory.read_write_self (m : Memory) (a : Nat) (v : Byte) : (m.write a v).read a = v := by
  unfold Memory.write Memory.read
  split
  · simp [cellsFind_erase_self, *]
  · simp [cellsFind_insert_self]

theorem Memory.read_write_ne (m : Memory) (a : Nat) (v : Byte) {b : Nat} (h : b ≠ a) :
    (m.write a v).read b = m.read b := by
  unfold Memory.write Memory.read
  split
  · rw [cellsFind_erase_ne a m h]
  · rw [cellsFind_insert_ne a v m h]

/-- Every write within the addresses keeps the canonical form. -/
theorem Memory.write_keeps_wf {lo hi : Nat} (m : Memory) (a : Nat) (v : Byte)
    (h : Memory.wf lo hi m) (h1 : lo ≤ a) (h2 : a < hi) : Memory.wf lo hi (m.write a v) := by
  unfold Memory.write
  split
  · exact ⟨cellsRise_erase a m h.1, fun c hc => h.2 c (mem_of_mem_cellsErase a m hc)⟩
  · rename_i hv
    refine ⟨cellsRise_insert a v m h.1, fun c hc => ?_⟩
    rcases mem_cellsInsert a v m hc with rfl | hc
    · exact ⟨hv, h1, h2⟩
    · exact h.2 c hc

theorem Memory.wf_nil (lo hi : Nat) : Memory.wf lo hi [] := ⟨.nil, by simp⟩

theorem powerOnRam_wf (n : Nat) : Memory.wf 0x0C 0x50 (powerOnRam n) := by
  have key : ∀ (l : List DataAddr) (m : Memory), (∀ a ∈ l, 0x0C ≤ a.toNat ∧ a.toNat < 0x50) →
      Memory.wf 0x0C 0x50 m → Memory.wf 0x0C 0x50
        (l.foldl (fun m a => m.write a.toNat (Config.powerOnValue n (.gpr a))) m) := by
    intro l
    induction l with
    | nil => exact fun m _ hm => hm
    | cons a l ih =>
      intro m hl hm
      obtain ⟨h1, h2⟩ := hl a (by simp)
      exact ih _ (fun x hx => hl x (by simp [hx])) (Memory.write_keeps_wf m _ _ hm h1 h2)
  refine key _ _ ?_ (Memory.wf_nil _ _)
  intro a ha
  simp only [Config.gprAddrs, List.mem_map, List.mem_range] at ha
  obtain ⟨i, hi, rfl⟩ := ha
  simp only [BitVec.toNat_ofNat]
  omega

/-! ### The program image -/

theorem ProgMem.read_write_self (m : ProgMem) (a : Nat) (v : InstrWord) :
    (m.write a v).read a = some v := cellsFind_insert_self a v m

theorem ProgMem.read_write_ne (m : ProgMem) (a : Nat) (v : InstrWord) {b : Nat} (h : b ≠ a) :
    (m.write a v).read b = m.read b := cellsFind_insert_ne a v m h

theorem ProgMem.write_keeps_wf {size : Nat} (m : ProgMem) (a : Nat) (v : InstrWord)
    (h : ProgMem.wf size m) (ha : a < size) : ProgMem.wf size (m.write a v) := by
  refine ⟨cellsRise_insert a v m h.1, fun c hc => ?_⟩
  rcases mem_cellsInsert a v m hc with rfl | hc
  · exact ha
  · exact h.2 c hc

end Sys2Proof.Machine
end

