-- ==== Sys2Proof/Laws/PerInstr.lean ====
section
/-! SUPPORT. The per-instruction family `CarriesItsRow`: the canonical word of an instruction has the
match bits of a row of the opcode table, and that row's fields give the instruction back. -/

namespace Sys2Proof.Laws.CarriesItsRow

/-- The canonical word of `i` belongs to a row of the table, and the row's fields are those of `i`
(R114, R119). -/
def Statement (i : Instr) : Prop :=
  ∃ r ∈ opRows, encode i &&& r.mask = r.pattern ∧ r.build (encode i) = i

/-- The check of the statement for one row, named by its place in the table. -/
def fitsRow (n : Nat) (i : Instr) : Bool :=
  match opRows[n]? with
  | some r => encode i &&& r.mask == r.pattern && decide (r.build (encode i) = i)
  | none => false

theorem statement_of_fitsRow {n : Nat} {i : Instr} (h : fitsRow n i = true) : Statement i := by
  unfold fitsRow at h
  split at h
  · rename_i r hr
    exact ⟨r, List.mem_of_getElem? hr, by simpa using h⟩
  · simp at h

theorem fits_either {n : Nat} {mk : Dest → FileField → Instr}
    (h : ∀ f, fitsRow n (mk .w f) = true ∧ fitsRow n (mk .f f) = true) (d : Dest) (f : FileField) :
    Statement (mk d f) := by
  cases d
  · exact statement_of_fitsRow (h f).1
  · exact statement_of_fitsRow (h f).2

theorem addlw (k : Byte) : Statement (.addlw k) :=
  statement_of_fitsRow ((by decide +kernel : ∀ k, fitsRow 0 (.addlw k) = true) k)

theorem addwf (d : Dest) (f : FileField) : Statement (.addwf d f) :=
  fits_either (n := 1) (by decide +kernel) d f

theorem andlw (k : Byte) : Statement (.andlw k) :=
  statement_of_fitsRow ((by decide +kernel : ∀ k, fitsRow 2 (.andlw k) = true) k)

theorem andwf (d : Dest) (f : FileField) : Statement (.andwf d f) :=
  fits_either (n := 3) (by decide +kernel) d f

theorem bcf (b : BitField) (f : FileField) : Statement (.bcf b f) :=
  statement_of_fitsRow ((by decide +kernel : ∀ b f, fitsRow 4 (.bcf b f) = true) b f)

theorem bsf (b : BitField) (f : FileField) : Statement (.bsf b f) :=
  statement_of_fitsRow ((by decide +kernel : ∀ b f, fitsRow 5 (.bsf b f) = true) b f)

theorem btfsc (b : BitField) (f : FileField) : Statement (.btfsc b f) :=
  statement_of_fitsRow ((by decide +kernel : ∀ b f, fitsRow 6 (.btfsc b f) = true) b f)

theorem btfss (b : BitField) (f : FileField) : Statement (.btfss b f) :=
  statement_of_fitsRow ((by decide +kernel : ∀ b f, fitsRow 7 (.btfss b f) = true) b f)

theorem call (k : BitVec 11) : Statement (.call k) :=
  statement_of_fitsRow ((by decide +kernel : ∀ k, fitsRow 8 (.call k) = true) k)

theorem clrf (f : FileField) : Statement (.clrf f) :=
  statement_of_fitsRow ((by decide +kernel : ∀ f, fitsRow 9 (.clrf f) = true) f)

theorem clrw : Statement .clrw := statement_of_fitsRow (n := 10) (by decide)

theorem clrwdt : Statement .clrwdt := statement_of_fitsRow (n := 11) (by decide)

theorem comf (d : Dest) (f : FileField) : Statement (.comf d f) :=
  fits_either (n := 12) (by decide +kernel) d f

theorem decf (d : Dest) (f : FileField) : Statement (.decf d f) :=
  fits_either (n := 13) (by decide +kernel) d f

theorem decfsz (d : Dest) (f : FileField) : Statement (.decfsz d f) :=
  fits_either (n := 14) (by decide +kernel) d f

theorem goto (k : BitVec 11) : Statement (.goto k) :=
  statement_of_fitsRow ((by decide +kernel : ∀ k, fitsRow 15 (.goto k) = true) k)

theorem incf (d : Dest) (f : FileField) : Statement (.incf d f) :=
  fits_either (n := 16) (by decide +kernel) d f

theorem incfsz (d : Dest) (f : FileField) : Statement (.incfsz d f) :=
  fits_either (n := 17) (by decide +kernel) d f

theorem iorlw (k : Byte) : Statement (.iorlw k) :=
  statement_of_fitsRow ((by decide +kernel : ∀ k, fitsRow 18 (.iorlw k) = true) k)

theorem iorwf (d : Dest) (f : FileField) : Statement (.iorwf d f) :=
  fits_either (n := 19) (by decide +kernel) d f

theorem movlw (k : Byte) : Statement (.movlw k) :=
  statement_of_fitsRow ((by decide +kernel : ∀ k, fitsRow 20 (.movlw k) = true) k)

theorem movf (d : Dest) (f : FileField) : Statement (.movf d f) :=
  fits_either (n := 21) (by decide +kernel) d f

theorem movwf (f : FileField) : Statement (.movwf f) :=
  statement_of_fitsRow ((by decide +kernel : ∀ f, fitsRow 22 (.movwf f) = true) f)

theorem nop : Statement .nop := statement_of_fitsRow (n := 23) (by decide)

theorem retfie : Statement .retfie := statement_of_fitsRow (n := 24) (by decide)

theorem retlw (k : Byte) : Statement (.retlw k) :=
  statement_of_fitsRow ((by decide +kernel : ∀ k, fitsRow 25 (.retlw k) = true) k)

theorem ret : Statement .ret := statement_of_fitsRow (n := 26) (by decide)

theorem rlf (d : Dest) (f : FileField) : Statement (.rlf d f) :=
  fits_either (n := 27) (by decide +kernel) d f

theorem rrf (d : Dest) (f : FileField) : Statement (.rrf d f) :=
  fits_either (n := 28) (by decide +kernel) d f

theorem sleep : Statement .sleep := statement_of_fitsRow (n := 29) (by decide)

theorem sublw (k : Byte) : Statement (.sublw k) :=
  statement_of_fitsRow ((by decide +kernel : ∀ k, fitsRow 30 (.sublw k) = true) k)

theorem subwf (d : Dest) (f : FileField) : Statement (.subwf d f) :=
  fits_either (n := 31) (by decide +kernel) d f

theorem swapf (d : Dest) (f : FileField) : Statement (.swapf d f) :=
  fits_either (n := 32) (by decide +kernel) d f

theorem xorlw (k : Byte) : Statement (.xorlw k) :=
  statement_of_fitsRow ((by decide +kernel : ∀ k, fitsRow 33 (.xorlw k) = true) k)

theorem xorwf (d : Dest) (f : FileField) : Statement (.xorwf d f) :=
  fits_either (n := 34) (by decide +kernel) d f

end Sys2Proof.Laws.CarriesItsRow
end

