-- ==== Sys2Proof/Tests/Slice0.lean ====
section
/-! SUPPORT. Tests of the model on single steps, each decided by the kernel. The expected values are
those of spec/95_test_vectors.md (named in the comments) or are worked by hand from the rule named. -/

namespace Sys2Proof.Machine

open Sys2Proof.Config (UnknownLoc)

/-! ### Source lines that the check refuses (R117) -/

theorem test_f_above_127_is_refused : (SourceLine.mk .ADDWF [128, 0]).check = none := by decide
theorem test_d_above_1_is_refused : (SourceLine.mk .MOVF [12, 2]).check = none := by decide
theorem test_b_above_7_is_refused : (SourceLine.mk .BSF [12, 8]).check = none := by decide
theorem test_f_above_127_is_refused_with_a_bit : (SourceLine.mk .BCF [128, 0]).check = none := by decide
theorem test_clrf_of_128_is_refused : (SourceLine.mk .CLRF [128]).check = none := by decide
theorem test_k_above_255_is_refused : (SourceLine.mk .MOVLW [256]).check = none := by decide
theorem test_k_above_2047_is_refused : (SourceLine.mk .GOTO [2048]).check = none := by decide
theorem test_movwf_takes_no_d : (SourceLine.mk .MOVWF [12, 0]).check = none := by decide
theorem test_addwf_needs_d : (SourceLine.mk .ADDWF [12]).check = none := by decide
theorem test_btfsc_needs_b : (SourceLine.mk .BTFSC [12]).check = none := by decide
theorem test_call_needs_k : (SourceLine.mk .CALL []).check = none := by decide
theorem test_nop_takes_no_operand : (SourceLine.mk .NOP [0]).check = none := by decide
theorem test_largest_operands_pass :
    (SourceLine.mk .ADDWF [127, 1]).check = some (.addwf .f 0x7F)
    ∧ (SourceLine.mk .BTFSS [127, 7]).check = some (.btfss 7 0x7F)
    ∧ (SourceLine.mk .CALL [2047]).check = some (.call 0x7FF) := by decide

/-! ### Decoding: a word of every row, written out from its encoding -/

theorem test_decode_addlw : decode 0b11111010100101 = .ok (.addlw 0xA5) := by decide
theorem test_decode_addlw_with_x : decode 0b11111110100101 = .ok (.addlw 0xA5) := by decide
theorem test_decode_addwf : decode 0b00011110001100 = .ok (.addwf .f 0x0C) := by decide
theorem test_decode_andlw : decode 0b11100110100101 = .ok (.andlw 0xA5) := by decide
theorem test_decode_andwf : decode 0b00010100001100 = .ok (.andwf .w 0x0C) := by decide
theorem test_decode_bcf : decode 0b01000110001100 = .ok (.bcf 3 0x0C) := by decide
theorem test_decode_bsf : decode 0b01011010000011 = .ok (.bsf 5 0x03) := by decide
theorem test_decode_btfsc : decode 0b01101110000110 = .ok (.btfsc 7 0x06) := by decide
theorem test_decode_btfss : decode 0b01110010001011 = .ok (.btfss 1 0x0B) := by decide
theorem test_decode_call : decode 0b10010000000101 = .ok (.call 0x405) := by decide
theorem test_decode_clrf : decode 0b00000110001101 = .ok (.clrf 0x0D) := by decide
theorem test_decode_clrw : decode 0b00000100000000 = .ok (.clrw) := by decide
theorem test_decode_clrw_with_x : decode 0b00000101010101 = .ok (.clrw) := by decide
theorem test_decode_clrwdt : decode 0b00000001100100 = .ok (.clrwdt) := by decide
theorem test_decode_comf : decode 0b00100110001100 = .ok (.comf .f 0x0C) := by decide
theorem test_decode_decf : decode 0b00001101001111 = .ok (.decf .w 0x4F) := by decide
theorem test_decode_decfsz : decode 0b00101110001100 = .ok (.decfsz .f 0x0C) := by decide
theorem test_decode_goto : decode 0b10111111111111 = .ok (.goto 0x7FF) := by decide
theorem test_decode_incf : decode 0b00101010000000 = .ok (.incf .f 0x00) := by decide
theorem test_decode_incfsz : decode 0b00111100001100 = .ok (.incfsz .w 0x0C) := by decide
theorem test_decode_iorlw : decode 0b11100010100101 = .ok (.iorlw 0xA5) := by decide
theorem test_decode_iorwf : decode 0b00010010001101 = .ok (.iorwf .f 0x0D) := by decide
theorem test_decode_movlw : decode 0b11000001011010 = .ok (.movlw 0x5A) := by decide
theorem test_decode_movlw_with_x : decode 0b11001101011010 = .ok (.movlw 0x5A) := by decide
theorem test_decode_movf : decode 0b00100000000110 = .ok (.movf .w 0x06) := by decide
theorem test_decode_movwf : decode 0b00000010000101 = .ok (.movwf 0x05) := by decide
theorem test_decode_nop : decode 0b00000000000000 = .ok (.nop) := by decide
theorem test_decode_nop_with_x : decode 0b00000001100000 = .ok (.nop) := by decide
theorem test_decode_retfie : decode 0b00000000001001 = .ok (.retfie) := by decide
theorem test_decode_retlw : decode 0b11010000110111 = .ok (.retlw 0x37) := by decide
theorem test_decode_retlw_with_x : decode 0b11011000110111 = .ok (.retlw 0x37) := by decide
theorem test_decode_return : decode 0b00000000001000 = .ok (.ret) := by decide
theorem test_decode_rlf : decode 0b00110100001100 = .ok (.rlf .w 0x0C) := by decide
theorem test_decode_rrf : decode 0b00110010001100 = .ok (.rrf .f 0x0C) := by decide
theorem test_decode_sleep : decode 0b00000001100011 = .ok (.sleep) := by decide
theorem test_decode_sublw : decode 0b11110000000010 = .ok (.sublw 0x02) := by decide
theorem test_decode_sublw_with_x : decode 0b11110100000010 = .ok (.sublw 0x02) := by decide
theorem test_decode_subwf : decode 0b00001010001100 = .ok (.subwf .f 0x0C) := by decide
theorem test_decode_swapf : decode 0b00111010000011 = .ok (.swapf .f 0x03) := by decide
theorem test_decode_xorlw : decode 0b11101011111111 = .ok (.xorlw 0xFF) := by decide
theorem test_decode_xorwf : decode 0b00011001111111 = .ok (.xorwf .w 0x7F) := by decide

theorem test_decode_unassigned :
    decode 0x0001 = .error (.illegal 0x0001) ∧ decode 0x000A = .error (.illegal 0x000A)
    ∧ decode 0x0061 = .error (.illegal 0x0061) ∧ decode 0x0062 = .error (.illegal 0x0062)
    ∧ decode 0x0065 = .error (.illegal 0x0065) ∧ decode 0x3B00 = .error (.illegal 0x3B00)
    ∧ decode 0x3BFF = .error (.illegal 0x3BFF) := by decide
theorem test_table_word : decodeTableWord 16 0x2803 = some (.goto 0x003)
    ∧ decodeTableWord 16 0x0001 = none ∧ decodeTableWord 16 0x4000 = none := by decide

/-! ### Single instructions -/

/-- What `g` says of the state an instruction leaves; `none` after a fault. -/
def after {α : Type} (o : Result) (g : State → α) : Option α :=
  match o with
  | .next t => some (g t)
  | _ => none

/-- The fault an instruction ends in. -/
def faultOf (o : Result) : Option Fault :=
  match o with
  | .fault e => some e
  | _ => none

/-- A state with the address, W, STATUS and one byte at 0Ch given, the rest as after reset. -/
def at' (pc : ProgAddr) (w status gpr : Byte) : State :=
  { State.reset with pc := pc, w := w, status := status, ram := [(0x0C, gpr)] }

/-- W, the byte at 0Ch and STATUS. -/
def look (s : State) : Byte × Byte × Byte := (s.w, s.ram.read 0x0C, s.status)

/-- The address and the cycles. -/
def moved (s : State) : ProgAddr × Nat := (s.pc, s.cyc)

/-- A state with a stack of the given depth and entries, PCLATH and INTCON. -/
def stacked (pc : ProgAddr) (pclath : BitVec 5) (depth : Fin 9) (entries : Vector ProgAddr 8) : State :=
  { State.reset with pc := pc, pclath := pclath, sp := depth, stack := entries, ram := [] }

/-- Eight entries, the depth beside. -/
def entries : Vector ProgAddr 8 := #v[1, 2, 3, 4, 5, 6, 7, 8]

/-- The state with another stack policy. -/
def circular (s : State) : State := { s with cfg := { s.cfg with stackPolicy := .circular } }

/-- The state under UNINIT_POLICY = fault, with the given locations unwritten. -/
def marked (s : State) (ls : List UnknownLoc) : State :=
  { s with cfg := { s.cfg with uninitPolicy := .fault }, unwritten := ls }

/-- V-ADD4. -/
theorem test_addlw :
    after (exec (.addlw 0x01) (at' 0x0020 0xFF 0x1F 0x00)) look = some (0x00, 0x00, 0x1F) := by decide
/-- V-ADD14. -/
theorem test_addlw_half_carry :
    after (exec (.addlw 0x08) (at' 0x0020 0x08 0x1F 0x00)) look = some (0x10, 0x00, 0x1A) := by decide
/-- V-ADD1. -/
theorem test_addwf :
    after (exec (.addwf .f 0x0C) (at' 0x0020 0x17 0x1F 0xC2)) look = some (0x17, 0xD9, 0x18) := by decide
/-- V-ADD15. -/
theorem test_addwf_both_carries :
    after (exec (.addwf .f 0x0C) (at' 0x0020 0xFF 0x18 0xFF)) look = some (0xFF, 0xFE, 0x1B) := by decide
/-- V-LOG3. -/
theorem test_andlw :
    after (exec (.andlw 0x0F) (at' 0x0020 0xF0 0x1B 0x00)) look = some (0x00, 0x00, 0x1F) := by decide
/-- V-LOG6, on 0Ch. -/
theorem test_andwf :
    after (exec (.andwf .f 0x0C) (at' 0x0020 0xB5 0x1F 0xAF)) look = some (0xB5, 0xA5, 0x1B) := by decide
/-- R151 by hand: no flag is written, Z not either. -/
theorem test_bcf :
    after (exec (.bcf 3 0x0C) (at' 0x0020 0x77 0x1F 0x08)) look = some (0x77, 0x00, 0x1F) := by decide
/-- V-SP7. -/
theorem test_bcf_pd_is_read_only :
    after (exec (.bcf 3 0x03) (at' 0x0020 0x00 0x1F 0x00)) look = some (0x00, 0x00, 0x1F) := by decide
/-- The BSF card. -/
theorem test_bsf :
    after (exec (.bsf 7 0x0C) (at' 0x0020 0x77 0x18 0x0A)) look = some (0x77, 0x8A, 0x18) := by decide
/-- S6d: the latch bit of an input pin is lost. -/
theorem test_bsf_on_a_port_uses_the_pins :
    after (exec (.bsf 0 0x06) { State.reset with trisB := 0xFE, latB := 0x80 }) (·.latB) = some 0x01 := by decide
/-- V-BIT11, at 0020h. -/
theorem test_btfsc :
    after (exec (.btfsc 0 0x0C) (at' 0x0020 0x00 0x18 0xFE)) moved = some (0x0022, 2) := by decide
/-- R153 by hand. -/
theorem test_btfsc_no_skip :
    after (exec (.btfsc 7 0x0C) (at' 0x0020 0x00 0x18 0xFE)) moved = some (0x0021, 1) := by decide
/-- V-BIT15, at 0020h. -/
theorem test_btfss :
    after (exec (.btfss 0 0x0C) (at' 0x0020 0x00 0x18 0xFE)) moved = some (0x0021, 1) := by decide
/-- R122 by hand, at the top of program memory. -/
theorem test_btfss_skip_wraps :
    after (exec (.btfss 7 0x0C) (at' 0x1FFF 0x00 0x18 0xFE)) moved = some (0x0001, 2) := by decide
/-- V-CT2. -/
theorem test_call :
    after (exec (.call 0x7FF) (stacked 0x0100 0x18 1 #v[2, 0, 0, 0, 0, 0, 0, 0])) (fun s => (s.pc, s.sp, s.stack[1], s.cyc)) = some (0x1FFF, 2, 0x0101, 2) := by decide
/-- V-CT5. -/
theorem test_call_overflow :
    faultOf (exec (.call 0x010) (stacked 0x0040 0 8 entries)) = some (.stackOverflow 0x0040) := by decide
/-- V-UN29, on 0Ch. -/
theorem test_clrf :
    after (exec (.clrf 0x0C) (at' 0x0020 0x77 0x1B 0x5A)) look = some (0x77, 0x00, 0x1F) := by decide
/-- V-SP1. -/
theorem test_clrf_of_status :
    after (exec (.clrf 0x03) (at' 0x0020 0x00 0xFB 0x00)) (·.status) = some 0x1F := by decide
/-- V-UN31. -/
theorem test_clrw :
    after (exec (.clrw) (at' 0x0020 0x5A 0x18 0x13)) look = some (0x00, 0x13, 0x1C) := by decide
/-- V-SY1. -/
theorem test_clrwdt :
    after (exec .clrwdt { State.reset with status := 0x00, prescaler := 0x55, wdt := 9 }) (fun s => (s.status, s.wdt, s.prescaler, s.asleep)) = some (0x18, 0, 0x00, false) := by decide
/-- V-SY2. -/
theorem test_clrwdt_keeps_timer_prescaler :
    after (exec .clrwdt { State.reset with optionReg := 0xF0, prescaler := 0x55, wdt := 9 }) (fun s => (s.status, s.wdt, s.prescaler)) = some (0x18, 0, 0x55) := by decide
/-- V-UN1. -/
theorem test_comf :
    after (exec (.comf .w 0x0C) (at' 0x0020 0x77 0x18 0x13)) look = some (0xEC, 0x13, 0x18) := by decide
/-- V-UN4. -/
theorem test_comf_zero :
    after (exec (.comf .f 0x0C) (at' 0x0020 0x77 0x18 0xFF)) look = some (0x77, 0x00, 0x1C) := by decide
/-- V-UN8. -/
theorem test_decf :
    after (exec (.decf .f 0x0C) (at' 0x0020 0x77 0x18 0x01)) look = some (0x77, 0x00, 0x1C) := by decide
/-- V-UN9. -/
theorem test_decf_wraps :
    after (exec (.decf .w 0x0C) (at' 0x0020 0x77 0x18 0x00)) look = some (0xFF, 0x00, 0x18) := by decide
/-- V-SK13. -/
theorem test_decfsz :
    after (exec (.decfsz .f 0x0C) (at' 0x1FFF 0x77 0x18 0x01)) (fun s => (moved s, look s)) = some ((0x0001, 2), (0x77, 0x00, 0x18)) := by decide
/-- V-SP24. -/
theorem test_decfsz_of_pcl :
    faultOf (exec (.decfsz .f 0x02) (at' 0x0010 0x00 0x18 0x00)) = some (.unmodelled .skipWithPclDestination 0x0010) := by decide
/-- V-CT7. -/
theorem test_goto :
    after (exec (.goto 0x400) (stacked 0x0006 0x10 0 entries)) (fun s => (s.pc, s.sp, s.cyc)) = some (0x1400, 0, 2) := by decide
/-- V-UN13. -/
theorem test_incf :
    after (exec (.incf .w 0x0C) (at' 0x0020 0x77 0x18 0xFF)) look = some (0x00, 0xFF, 0x1C) := by decide
/-- V-SP33: INDF reaches FSR itself. -/
theorem test_incf_indirect :
    after (exec (.incf .f 0x00) { State.reset with fsr := 0x04 }) (·.fsr) = some 0x05 := by decide
/-- V-SP25. -/
theorem test_incfsz_of_pcl_to_w :
    after (exec (.incfsz .w 0x02) (at' 0x00FE 0x11 0x18 0x00)) (fun s => (s.w, moved s)) = some (0x00, (0x0100, 2)) := by decide
/-- V-SK9. -/
theorem test_incfsz_no_skip :
    after (exec (.incfsz .w 0x0C) (at' 0x0005 0x77 0x18 0xFE)) (fun s => (s.w, moved s)) = some (0xFF, (0x0006, 1)) := by decide
/-- V-LOG23. -/
theorem test_iorlw :
    after (exec (.iorlw 0x35) (at' 0x0020 0x9A 0x1B 0x00)) look = some (0xBF, 0x00, 0x1B) := by decide
/-- The IORWF card. -/
theorem test_iorwf :
    after (exec (.iorwf .w 0x0C) (at' 0x0020 0x91 0x18 0x13)) look = some (0x93, 0x13, 0x18) := by decide
/-- V-LIT1. -/
theorem test_movlw :
    after (exec (.movlw 0x5A) (at' 0x0020 0x77 0x1F 0x00)) look = some (0x5A, 0x00, 0x1F) := by decide
/-- V-UN20. -/
theorem test_movf :
    after (exec (.movf .f 0x0C) (at' 0x0020 0x77 0x18 0x00)) look = some (0x77, 0x00, 0x1C) := by decide
/-- S6a. -/
theorem test_movf_of_open_drain_port :
    after (exec (.movf .w 0x05) { State.reset with trisA := 0x0F, latA := 0x1A, pinA := 0x05 }) (·.w) = some 0x05 := by decide
/-- V-UN34. -/
theorem test_movwf :
    after (exec (.movwf 0x0C) (at' 0x0020 0x4F 0x1F 0xFF)) look = some (0x4F, 0x4F, 0x1F) := by decide
/-- V-SP37. -/
theorem test_movwf_in_bank_1 :
    after (exec (.movwf 0x01) { State.reset with status := 0x38, w := 0xD7, tmr0 := 0x33 }) (fun s => (s.optionReg, s.tmr0)) = some (0xD7, 0x33) := by decide
/-- V-SY3. -/
theorem test_nop :
    after (exec .nop (at' 0x0030 0x12 0x1F 0x00)) id = some { at' 0x0031 0x12 0x1F 0x00 with cyc := 1 } := by decide
/-- V-CT13. -/
theorem test_retfie :
    after (exec .retfie { stacked 0x0007 0 1 #v[0x0123, 0, 0, 0, 0, 0, 0, 0] with intcon := 0x20 }) (fun s => (s.pc, s.sp, s.intcon, s.cyc)) = some (0x0123, 0, 0xA0, 2) := by decide
/-- V-CT11. -/
theorem test_retlw :
    after (exec (.retlw 0x37) (stacked 0x0006 0 1 #v[2, 0, 0, 0, 0, 0, 0, 0])) (fun s => (s.pc, s.sp, s.w, s.cyc)) = some (0x0002, 0, 0x37, 2) := by decide
/-- V-CT9. -/
theorem test_return :
    after (exec .ret (stacked 0x0030 0 2 #v[0x10, 0x42, 0, 0, 0, 0, 0, 0])) (fun s => (s.pc, s.sp, s.cyc)) = some (0x0042, 1, 2) := by decide
/-- V-CT10. -/
theorem test_return_underflow :
    faultOf (exec .ret (stacked 0x0030 0 0 entries)) = some (.stackUnderflow 0x0030) := by decide
/-- V-ROT3. -/
theorem test_rlf :
    after (exec (.rlf .w 0x0C) (at' 0x0020 0x77 0x1D 0xE6)) look = some (0xCD, 0xE6, 0x1D) := by decide
/-- V-SP13. -/
theorem test_rlf_of_status :
    after (exec (.rlf .f 0x03) (at' 0x0020 0x00 0x99 0x00)) (·.status) = some 0x39 := by decide
/-- V-ROT16. -/
theorem test_rrf :
    after (exec (.rrf .f 0x0C) (at' 0x0020 0x77 0x1C 0x01)) look = some (0x77, 0x00, 0x1D) := by decide
/-- V-ROT17. -/
theorem test_rrf_carry_in :
    after (exec (.rrf .w 0x0C) (at' 0x0020 0x77 0x1D 0x00)) look = some (0x80, 0x00, 0x1C) := by decide
/-- V-SY7. -/
theorem test_sleep :
    after (exec .sleep { State.reset with prescaler := 0x55, wdt := 9 }) (fun s => (s.status, s.wdt, s.prescaler, s.asleep)) = some (0x10, 0, 0x00, true) := by decide
/-- V-SUB5. -/
theorem test_sublw :
    after (exec (.sublw 0x02) (at' 0x0020 0x03 0x1F 0x00)) look = some (0xFF, 0x00, 0x18) := by decide
/-- V-SUB13. -/
theorem test_sublw_borrow_of_the_low_digit :
    after (exec (.sublw 0x80) (at' 0x0020 0x7F 0x18 0x00)) look = some (0x01, 0x00, 0x19) := by decide
/-- V-SUB18. -/
theorem test_subwf :
    after (exec (.subwf .w 0x0C) (at' 0x0020 0x02 0x18 0x03)) look = some (0x01, 0x03, 0x1B) := by decide
/-- R137 by hand: 2 - 2. -/
theorem test_subwf_zero :
    after (exec (.subwf .f 0x0C) (at' 0x0020 0x02 0x18 0x02)) look = some (0x02, 0x00, 0x1F) := by decide
/-- V-UN24. -/
theorem test_swapf :
    after (exec (.swapf .f 0x0C) (at' 0x0020 0x77 0x1C 0xA5)) look = some (0x77, 0x5A, 0x1C) := by decide
/-- V-SP12. -/
theorem test_swapf_of_status :
    after (exec (.swapf .f 0x03) (at' 0x0020 0x00 0x25 0x00)) (·.status) = some 0x42 := by decide
/-- V-LOG31. -/
theorem test_xorlw :
    after (exec (.xorlw 0xFF) (at' 0x0020 0xFF 0x1B 0x00)) look = some (0x00, 0x00, 0x1F) := by decide
/-- V-LOG30, on 0Ch. -/
theorem test_xorwf :
    after (exec (.xorwf .f 0x0C) (at' 0x0020 0xB5 0x18 0xAF)) look = some (0xB5, 0x1A, 0x18) := by decide

/-! ### Single steps -/

/-- A quiet state with `w` at the address `pc` of its program. -/
def running (pc : ProgAddr) (w : InstrWord) (intcon : Byte) : State :=
  { State.reset with pc := pc, prog := [(pc.toNat, w)], intcon := intcon }

/-- S3a. -/
theorem test_interrupt_entry :
    after (step { running 0x0123 0x0000 0xA4 with sp := 1, stack := #v[0x50, 0, 0, 0, 0, 0, 0, 0] }) (fun s => (s.pc, s.sp, s.stack[1], s.intcon)) = some (0x0004, 2, 0x0123, 0x24) := by decide
/-- S3c. -/
theorem test_no_interrupt_without_enable :
    after (step (running 0x0123 0x0000 0x84)) (fun s => (s.pc, s.intcon)) = some (0x0124, 0x84) := by decide
/-- R221 by hand: after reset Timer0 counts falling edges of T0CKI, 1:1. -/
theorem test_falling_edges_tick :
    after (step { running 0x0000 0x0000 0x00 with env := [[.t0Edge false, .t0Edge true, .t0Edge false]] }) (·.tmr0) = some 0x02 := by decide
/-- S3e. -/
theorem test_eeprom_interrupt :
    after (step { running 0x0123 0x0000 0xC0 with eecon1 := 0x10 }) (fun s => (s.pc, s.intcon)) = some (0x0004, 0x40) := by decide
/-- S1, step 8. -/
theorem test_timer_overflow_through_prescaler :
    after (step { running 0x0000 0x0000 0x00 with optionReg := 0xD1, tmr0 := 0xFF, prescaler := 0x07 }) (fun s => (s.tmr0, s.prescaler, s.intcon)) = some (0x00, 0x08, 0x04) := by decide
/-- S2, step 1. -/
theorem test_write_to_tmr0_inhibits :
    after (step { running 0x0000 0x0081 0x00 with optionReg := 0xDF, tmr0 := 0x33, w := 0x10 }) (fun s => (s.tmr0, s.t0Inhibit)) = some (0x10, 1) := by decide
/-- S4a, step 4. -/
theorem test_wake_up :
    after (step { running 0x0011 0x0A8C 0x10 with asleep := true, status := 0x10, env := [[.pinsB 0x01]] }) (fun s => (s.asleep, s.intcon, s.ram.read 0x0C, s.pc, s.status)) = some (false, 0x12, 0x01, 0x0012, 0x10) := by decide
/-- S7d, with NOP at 0234h. -/
theorem test_watchdog_wake_up :
    after (step { running 0x0234 0x0000 0x00 with asleep := true, status := 0x35, cfg := { Config.defaults with wdtEnabled := true }, env := [[.wdtTimeout]] }) (fun s => (s.asleep, s.status, s.pc)) = some (false, 0x25, 0x0235) := by decide
/-- S5, step 2. -/
theorem test_port_change_sets_rbif :
    after (step { running 0x0000 0x0000 0x00 with trisB := 0xF0, pinB := 0x50, rbLast := 5, env := [[.pinsB 0x70]] }) (fun s => (s.intcon, s.rbLast)) = some (0x01, 5) := by decide
/-- S7a. -/
theorem test_mclr_reset_awake :
    after (step { State.reset with pc := 0x0234, status := 0x3D, w := 0x5A, intcon := 0xB1, env := [[.mclr false]] }) (fun s => (s.pc, s.status, s.intcon, s.w)) = some (0x0000, 0x1D, 0x01, 0x5A) := by decide
/-- S7b. -/
theorem test_mclr_reset_asleep :
    after (step { State.reset with asleep := true, status := 0x35, env := [[.mclr false]] }) (fun s => (s.status, s.asleep)) = some (0x15, false) := by decide
/-- D8: every reset sets the circular pointer to 0. -/
theorem test_reset_clears_circular_pointer :
    after (step { State.reset with stackPtr := 5, env := [[.mclr false]] }) (·.stackPtr) = some 0 := by decide
/-- S7c. -/
theorem test_watchdog_reset :
    after (step { State.reset with status := 0x1D, cfg := { Config.defaults with wdtEnabled := true }, env := [[.wdtTimeout]] }) (·.status) = some 0x0D := by decide
/-- V-SP56. -/
theorem test_illegal_word :
    faultOf (step (running 0x0020 0x3B00 0x00)) = some (.illegalInstruction 0x0020 0x3B00) := by decide
/-- R72: the image defines no word. -/
theorem test_empty_image :
    faultOf (step State.reset) = some (.fetchOutsideProgram 0x0000) := by decide
/-- R161 by hand: the word placed at the reset vector is the next instruction. -/
theorem test_fetch_word_runs_next :
    after (step (State.reset.withFetchWord 16 0x3E15)) (·.w) = some 0x15 := by decide
/-- R59. -/
theorem test_unwritten_byte_is_reported :
    faultOf (exec (.movf .w 0x0C) (marked State.reset Config.unknownLocs)) = some (.uninitializedRead (.gpr 0x0C)) := by decide
/-! ### Witnesses: the hypotheses of each statement are met -/

/-- The instruction answers a next state. -/
def goesOn (o : Result) : Bool := (after o id).isSome

/-- Bank 1 selected, under UNINIT_POLICY = fault with one byte of the GPRs and DC unwritten. -/
def bank1 : State := marked { State.reset with status := 0x38 } [.gpr 0x4F, .dc]

/-- Bank 0, the same. -/
def bank0 : State := marked State.reset [.gpr 0x4F, .dc]

/-- The hypotheses of `ByteEffect`: the locations known, EECON1 or EECON2 named or not. -/
abbrev MeetsByte (s : State) (f : FileField) (needs : List UnknownLoc) (eecon : Bool) : Prop :=
  s.Known (pointerNeeds f ++ s.readNeeds (s.advance.operand f) ++ needs)
    ∧ (s.advance.operand f).isEecon = eecon

/-- Both cases of `ByteEffect`, at 0Ch, the last GPR but one, INDF, and at EECON1 and EECON2. -/
abbrev MeetsByteEffect (needs : List UnknownLoc) : Prop :=
  MeetsByte bank0 0x0C needs false ∧ MeetsByte bank0 0x4E needs false
    ∧ MeetsByte bank0 0x00 needs false ∧ MeetsByte bank1 0x08 needs true
    ∧ MeetsByte bank1 0x09 needs true

theorem test_witness_AddAndSubtractLiteral : bank0.Known [.w]
    ∧ 0x3FFF#14 &&& 0x3E00#14 = 0x3E00#14 ∧ 0x3DFF#14 &&& 0x3E00#14 = 0x3C00#14 := by decide
theorem test_witness_LogicLiteral : bank0.Known [.w] ∧ 0x39FF#14 &&& 0x3F00#14 = 0x3900#14
    ∧ 0x38FF#14 &&& 0x3F00#14 = 0x3800#14 ∧ 0x3AFF#14 &&& 0x3F00#14 = 0x3A00#14 := by decide
theorem test_witness_MoveLiteral : bank0.Known [] ∧ 0x33FF#14 &&& 0x3C00#14 = 0x3000#14 := by decide
theorem test_witness_AddAndSubtractFile : MeetsByteEffect [.w]
    ∧ 0x07FF#14 &&& 0x3F00#14 = 0x0700#14 ∧ 0x02FF#14 &&& 0x3F00#14 = 0x0200#14 := by decide
theorem test_witness_LogicFile : MeetsByteEffect [.w] ∧ 0x05FF#14 &&& 0x3F00#14 = 0x0500#14
    ∧ 0x04FF#14 &&& 0x3F00#14 = 0x0400#14 ∧ 0x06FF#14 &&& 0x3F00#14 = 0x0600#14 := by decide
theorem test_witness_UnaryFile : MeetsByteEffect [] ∧ 0x09FF#14 &&& 0x3F00#14 = 0x0900#14
    ∧ 0x03FF#14 &&& 0x3F00#14 = 0x0300#14 ∧ 0x0AFF#14 &&& 0x3F00#14 = 0x0A00#14
    ∧ 0x08FF#14 &&& 0x3F00#14 = 0x0800#14 := by decide
theorem test_witness_RotateAndSwapFile : MeetsByteEffect [.c]
    ∧ 0x0DFF#14 &&& 0x3F00#14 = 0x0D00#14 ∧ 0x0CFF#14 &&& 0x3F00#14 = 0x0C00#14
    ∧ 0x0EFF#14 &&& 0x3F00#14 = 0x0E00#14 := by decide
theorem test_witness_ClearAndMoveToFile :
    (bank0.Known (pointerNeeds 0x4F ++ [.w]) ∧ (bank0.operand 0x4F).isEecon = false)
    ∧ (bank1.Known (pointerNeeds 0x09 ++ [.w]) ∧ (bank1.operand 0x09).isEecon = true)
    ∧ bank0.Known (pointerNeeds 0x00 ++ []) ∧ 0x01FF#14 &&& 0x3F80#14 = 0x0180#14
    ∧ 0x017F#14 &&& 0x3F80#14 = 0x0100#14 ∧ 0x00FF#14 &&& 0x3F80#14 = 0x0080#14 := by decide
theorem test_witness_CountAndSkip :
    (MeetsByte bank0 0x0C [] false ∧ bank0.advance.operand 0x0C ≠ .pcl)
    ∧ (MeetsByte bank0 0x02 [] false ∧ bank0.advance.operand 0x02 = .pcl)
    ∧ MeetsByte bank1 0x08 [] true ∧ 0x0BFF#14 &&& 0x3F00#14 = 0x0B00#14
    ∧ 0x0FFF#14 &&& 0x3F00#14 = 0x0F00#14 := by decide
theorem test_witness_ClearAndSetBit :
    (bank0.Known (pointerNeeds 0x03 ++ bank0.bitWriteNeeds (bank0.advance.operand 0x03))
      ∧ (bank0.advance.operand 0x03).isEecon = false)
    ∧ (bank1.Known (pointerNeeds 0x08 ++ bank1.bitWriteNeeds (bank1.advance.operand 0x08))
      ∧ (bank1.advance.operand 0x08).isEecon = true)
    ∧ 0x13FF#14 &&& 0x3C00#14 = 0x1000#14 ∧ 0x17FF#14 &&& 0x3C00#14 = 0x1400#14 := by decide
theorem test_witness_TestBitAndSkip :
    bank0.Known (pointerNeeds 0x03 ++ bank0.bitNeeds (bank0.advance.operand 0x03) 0)
    ∧ ¬ bank0.Known (pointerNeeds 0x03 ++ bank0.bitNeeds (bank0.advance.operand 0x03) 1)
    ∧ (bank0.advance.regValue (bank0.advance.operand 0x03)).getLsbD 0 = false
    ∧ (bank0.advance.regValue (bank0.advance.operand 0x03)).getLsbD 4 = true
    ∧ 0x1BFF#14 &&& 0x3C00#14 = 0x1800#14 ∧ 0x1FFF#14 &&& 0x3C00#14 = 0x1C00#14 := by decide
theorem test_witness_CallSubroutine :
    ((stacked 0 0 0 entries).cfg.stackPolicy = .fault ∧ (stacked 0 0 0 entries).sp.val < 8)
    ∧ (stacked 0 0 7 entries).sp.val < 8 ∧ (stacked 0 0 8 entries).sp.val = 8
    ∧ (circular (stacked 0 0 0 entries)).cfg.stackPolicy = .circular
    ∧ 0x27FF#14 &&& 0x3800#14 = 0x2000#14 := by decide
theorem test_witness_GotoAddress : 0x2FFF#14 &&& 0x3800#14 = 0x2800#14 := by decide
theorem test_witness_ReturnInstructions :
    ((stacked 0 0 0 entries).cfg.stackPolicy = .fault ∧ (stacked 0 0 0 entries).sp = 0)
    ∧ ((stacked 0 0 1 entries).sp.val = 0 + 1 ∧ (stacked 0 0 1 entries).stack[0]? = some 1)
    ∧ ((stacked 0 0 8 entries).sp.val = 7 + 1 ∧ (stacked 0 0 8 entries).stack[7]? = some 8)
    ∧ ((circular (stacked 0 0 0 entries)).cfg.stackPolicy = .circular
      ∧ (stacked 0 0 0 entries).stack[((circular (stacked 0 0 0 entries)).stackPtr - 1).val]? = some 8)
    ∧ 0x0009#14 &&& 0x3FFF#14 = 0x0009#14 ∧ 0x37FF#14 &&& 0x3C00#14 = 0x3400#14
    ∧ 0x0008#14 &&& 0x3FFF#14 = 0x0008#14 := by decide
theorem test_witness_ClearWatchdogTimer : 0x0064#14 &&& 0x3FFF#14 = 0x0064#14 := by decide
theorem test_witness_NoOperation : 0x0060#14 &&& 0x3F9F#14 = 0x0000#14 := by decide
theorem test_witness_EnterSleep : 0x0063#14 &&& 0x3FFF#14 = 0x0063#14 := by decide
theorem test_witness_EffectiveAddress : (0x7F#7 ≠ 0) ∧ 0xD8#8 &&& 0x3F#8 = State.reset.status &&& 0x3F#8
    ∧ State.reset.fsr = 0x00 ∧ { State.reset with fsr := 0x80 }.fsr = 0x80 := by decide
theorem test_witness_DataAddressMap :
    phys 0x0C = .gpr 0x0C ∧ phys 0x4F = .gpr 0x4F ∧ phys 0x8C = .gpr 0x0C ∧ phys 0xCF = .gpr 0x4F
    ∧ phys 0x50 = .absent ∧ phys 0x7F = .absent ∧ phys 0xD0 = .absent ∧ phys 0xFF = .absent := by decide
theorem test_witness_RegisterRead : Reg.tmr0 ≠ .portB := by decide
theorem test_witness_ReadAfterWrite : (0x0D#8 : DataAddr) ≠ 0x0C#8 := by decide
theorem test_witness_EqualReadsEqualMemory : Memory.wf 0x0C 0x50 [(0x0C, 0x01), (0x4F, 0xFF)]
    ∧ ¬ Memory.wf 0x0C 0x50 [(0x0C, 0x00)] ∧ ¬ Memory.wf 0x0C 0x50 [(0x0D, 0x01), (0x0C, 0x01)] := by
  decide
theorem test_witness_StatusAsDestination : (plainResult 0xFF).flags = noFlags
    ∧ (zResult 0x00).flags ≠ noFlags := by decide
theorem test_witness_WriteToPclJumps : bank0.Known [.w]
    ∧ (bank0.operand 0x02 = .pcl ∧ bank0.Known (pointerNeeds 0x02))
    ∧ { State.reset with fsr := 0x82 }.operand 0x00 = .pcl := by decide
theorem test_witness_PushAndPop :
    ((stacked 0 0 7 entries).cfg.stackPolicy = .fault ∧ (stacked 0 0 7 entries).sp.val < 8)
    ∧ (stacked 0 0 8 entries).sp.val = 8 ∧ (stacked 0 0 0 entries).sp.val = 0
    ∧ ((stacked 0 0 1 entries).sp.val = 0 + 1 ∧ (stacked 0 0 1 entries).stack[0]? = some 1)
    ∧ (circular (stacked 0 0 0 entries)).cfg.stackPolicy = .circular
    ∧ entries[((circular (stacked 0 0 0 entries)).stackPtr - 1).val]? = some 8 := by decide
theorem test_witness_circular_push :
    ∃ t, (circular (stacked 0 0 0 entries)).push 0x123 0x000 = .ok t := ⟨_, rfl⟩
theorem test_witness_DataMemoryFrame :
    goesOn (exec (.movwf 0x0C) (at' 0 0x5A 0x18 0x00)) = true
    ∧ destReg (.movwf 0x0C) (at' 0 0x5A 0x18 0x00) = some (.gpr 0x0C)
    ∧ goesOn (exec (.movf .w 0x0C) (at' 0 0x5A 0x18 0x00)) = true
    ∧ destReg (.movf .w 0x0C) (at' 0 0x5A 0x18 0x00) = none := by decide
theorem test_witness_SpecialRegisterFrame :
    goesOn (exec .nop State.reset) = true ∧ destReg .nop State.reset = none
    ∧ readReg .nop State.reset = none ∧ Instr.nop ≠ .clrwdt ∧ Instr.nop ≠ .sleep
    ∧ Instr.nop ≠ .retfie := by decide
theorem test_witness_FlagFrame :
    (goesOn (exec (.addwf .f 0x03) State.reset) = true ∧ destReg (.addwf .f 0x03) State.reset = some .status
      ∧ flagClass (.addwf .f 0x03) = .zdcc)
    ∧ (goesOn (exec (.incf .f 0x0C) State.reset) = true ∧ destReg (.incf .f 0x0C) State.reset ≠ some .status
      ∧ flagClass (.incf .f 0x0C) = .z)
    ∧ (goesOn (exec (.rlf .w 0x0C) State.reset) = true ∧ flagClass (.rlf .w 0x0C) = .c)
    ∧ (goesOn (exec (.movwf 0x0C) State.reset) = true ∧ flagClass (.movwf 0x0C) = .none) := by decide
theorem test_witness_WorkingRegisterAndStackFrame :
    goesOn (exec (.incf .f 0x0C) State.reset) = true ∧ writesW (.incf .f 0x0C) = false
    ∧ usesStack (.incf .f 0x0C) = false
    ∧ goesOn (exec .ret (stacked 0 0 1 entries)) = true ∧ ∀ k, Instr.ret ≠ .call k := by
  refine ⟨by decide, by decide, by decide, by decide, by simp⟩
theorem test_witness_NeverWrittenByInstructions :
    goesOn (exec (.incf .f 0x0C) State.reset) = true ∧ Instr.incf .f 0x0C ≠ .clrwdt
    ∧ Instr.incf .f 0x0C ≠ .sleep := by decide
theorem test_witness_EnvironmentFrame :
    { State.reset with optionReg := 0xDF, env := [[.t0Edge true]] }.t0cs = false
    ∧ { State.reset with asleep := true }.asleep = true := by decide
theorem test_witness_EnvironmentActions :
    State.reset.t0cs = true ∧ State.reset.optionReg.getLsbD 4 = true
    ∧ { State.reset with optionReg := 0xEF }.optionReg.getLsbD 4 = false ∧ State.reset.asleep = false ∧ State.reset.cfg.wdtEnabled = false
    ∧ { Config.defaults with wdtEnabled := true }.wdtEnabled = true
    ∧ ((environment State.reset).reset = none
      ∧ (environment { State.reset with env := [[.powerOn]] }).reset ≠ none)
    ∧ { State.reset with env := [[.pinsB 0x01, .mclr false], []] }.env
      = [.pinsB 0x01, .mclr false] :: [[]]
    ∧ (State.reset.env = [] ∧ State.reset.pinMclr = true
      ∧ { State.reset with pinMclr := false }.pinMclr = false) := by decide
theorem test_witness_ExternalInterruptEdge :
    (State.reset.optionReg.getLsbD 6 = true ∧ State.reset.pinB.getLsbD 0 = false
      ∧ (0x01 : Byte).getLsbD 0 = true)
    ∧ ({ State.reset with optionReg := 0xBF, pinB := 0x01 }.optionReg.getLsbD 6 = false
      ∧ { State.reset with pinB := 0x01 }.pinB.getLsbD 0 = true ∧ (0x00 : Byte).getLsbD 0 = false)
    ∧ State.reset.pinB.getLsbD 0 = (0xFE : Byte).getLsbD 0
    ∧ { State.reset with pinB := 0x01 }.optionReg.getLsbD 6
      = { State.reset with pinB := 0x01 }.pinB.getLsbD 0 := by decide
theorem test_witness_PortChangeFlag :
    ((environment { State.reset with pinB := 0x10 }).state.trisB.getLsbD 4 = true
      ∧ (environment { State.reset with pinB := 0x10 }).state.pinB.getLsbD 4
        ≠ (environment { State.reset with pinB := 0x10 }).state.rbLast.getLsbD (4 - 4))
    ∧ ((environment { State.reset with pinB := 0x80 }).state.pinB.getLsbD 7
        ≠ (environment { State.reset with pinB := 0x80 }).state.rbLast.getLsbD (7 - 4))
    ∧ State.reset.env = []
    ∧ (∀ i : Nat, i < 8 → 4 ≤ i → State.reset.pinB.getLsbD i = State.reset.rbLast.getLsbD (i - 4)) := by
  decide
theorem test_witness_TimerTick :
    ({ State.reset with t0Inhibit := 1 }.t0Inhibit ≠ 0 ∧ { State.reset with t0Inhibit := 2 }.t0Inhibit ≠ 0)
    ∧ (State.reset.t0Inhibit = 0 ∧ State.reset.optionReg.getLsbD 3 = true ∧ State.reset.tmr0 ≠ 0xFF)
    ∧ { State.reset with tmr0 := 0xFF }.tmr0 = 0xFF
    ∧ ((0xD7 : Byte).getLsbD 3 = false ∧ ((0x00 : Byte).toNat + 1) % 2 ^ (((0xD7 : Byte) &&& 0x07).toNat + 1) ≠ 0)
    ∧ ((0xFF : Byte).toNat + 1) % 2 ^ (((0xD7 : Byte) &&& 0x07).toNat + 1) = 0 := by decide
theorem test_witness_TimerCountsCycles :
    { State.reset with optionReg := 0xDF }.t0cs = false ∧ { State.reset with optionReg := 0xDF }.psa = true
    ∧ { State.reset with optionReg := 0xDF }.t0Inhibit = 0 := by decide
theorem test_witness_TimerCountsThroughPrescaler :
    { State.reset with optionReg := 0xD7 }.t0cs = false ∧ { State.reset with optionReg := 0xD7 }.psa = false
    ∧ { State.reset with optionReg := 0xD7 }.t0Inhibit = 0 := by decide
theorem test_witness_TimerWriteInhibits :
    { State.reset with optionReg := 0xDF }.t0cs = false ∧ { State.reset with optionReg := 0xDF }.psa = true
    ∧ { State.reset with optionReg := 0xD7 }.psa = false := by decide
theorem test_witness_StepRunsDecodedInstruction :
    (running 0x0123 0x0000 0x24).quiet = true ∧ (running 0x0123 0x0000 0x24).asleep = false
    ∧ ((running 0x0123 0x0000 0x24).gie && (running 0x0123 0x0000 0x24).pending) = false
    ∧ (running 0x0123 0x0000 0x24).prog.read (0x0123 % (running 0x0123 0x0000 0x24).cfg.progWords) = some 0x0000
    ∧ decode 0x0000 = .ok .nop
    ∧ boundary (running 0x0123 0x0000 0x24) = .run (running 0x0123 0x0000 0x24) := by decide
theorem test_witness_FetchFaults :
    (boundary State.reset = .run State.reset ∧ State.reset.prog.read 0 = none)
    ∧ (boundary (running 0 0x3BFF 0) = .run (running 0 0x3BFF 0)
      ∧ (running 0 0x3BFF 0).prog.read 0 = some 0x3BFF ∧ decode 0x3BFF = .error (.illegal 0x3BFF))
    ∧ (0x0001#13).toNat % State.reset.cfg.progWords = (0x1C01#13).toNat % State.reset.cfg.progWords := by
  decide
theorem test_witness_progRead : (running 0x0001 0x0009 0).progRead 0x0001 = .ok 0x0009 := rfl
theorem test_witness_InterruptEntryStep :
    ((environment (running 0x0123 0x0000 0xA4)).reset = none
      ∧ (environment (running 0x0123 0x0000 0xA4)).state.asleep = false
      ∧ (environment (running 0x0123 0x0000 0xA4)).state.gie = true
      ∧ (environment (running 0x0123 0x0000 0xA4)).state.pending = true
      ∧ (environment (running 0x0123 0x0000 0xA4)).state.cfg.stackPolicy = .fault
      ∧ (environment (running 0x0123 0x0000 0xA4)).state.sp.val < 8)
    ∧ (environment { running 0x0123 0x0000 0xA4 with sp := 8 }).state.sp.val = 8
    ∧ (environment (circular (running 0x0123 0x0000 0xA4))).state.cfg.stackPolicy = .circular
    ∧ (environment (running 0x0123 0x0000 0x24)).state.gie = false
    ∧ (environment (running 0x0123 0x0000 0x84)).state.pending = false := by decide
theorem test_witness_InterruptReturnsAndReenters :
    (running 0x0004 0x0009 0x92).quiet = true ∧ (running 0x0004 0x0009 0x92).asleep = false
    ∧ (running 0x0004 0x0009 0x92).gie = true ∧ (running 0x0004 0x0009 0x92).pending = true
    ∧ (running 0x0004 0x0009 0x92).prog.read (4 % (running 0x0004 0x0009 0x92).cfg.progWords) = some 0x0009
    ∧ (running 0x0004 0x0009 0x92).sp.val < 8 := by decide
theorem test_witness_SleepAndWakeUp :
    ((environment { State.reset with asleep := true }).reset = none
      ∧ (environment { State.reset with asleep := true }).state.asleep = true
      ∧ (environment { State.reset with asleep := true }).wdtWake = false
      ∧ (environment { State.reset with asleep := true }).state.wakePending = false)
    ∧ ((environment { State.reset with asleep := true, intcon := 0x12 }).state.intcon.getLsbD 4 = true
      ∧ (environment { State.reset with asleep := true, intcon := 0x12 }).state.intcon.getLsbD 1 = true)
    ∧ (environment { State.reset with
        asleep := true, cfg := { Config.defaults with wdtEnabled := true },
        env := [[.wdtTimeout]] }).wdtWake = true := by decide
theorem test_witness_ResetComesFirst :
    (environment { State.reset with env := [[.powerOn]] }).reset = some .powerOn
    ∧ (environment { State.reset with env := [[.mclr false]] }).reset = some .mclr
    ∧ ((environment { State.reset with pinMclr := false }).reset = some .mclr
      ∧ (environment { State.reset with pinMclr := false }).state.pinMclr = false
      ∧ { State.reset with pinMclr := false }.env = [])
    ∧ ((environment { State.reset with env := [[.pinsA 0x1F, .mclr false]] }).state.pinMclr = false
      ∧ (∀ e ∈ [EnvEvent.pinsA 0x1F, .mclr false], e ≠ .powerOn ∧ e ≠ .wdtTimeout))
    ∧ (State.reset.pinMclr = true
      ∧ (∀ e ∈ [EnvEvent.pinsB 0x01, .mclr true], e ≠ .mclr false ∧ e ≠ .powerOn ∧ e ≠ .wdtTimeout))
    ∧ (environment { State.reset with
        cfg := { Config.defaults with wdtEnabled := true }, env := [[.wdtTimeout]] }).reset
      = some .watchdog := by decide
theorem test_witness_EndedRunStays :
    ((running 0x0013 0x2813 0x12).quiet = true ∧ (running 0x0013 0x2813 0x12).runEnded = true)
    ∧ ({ State.reset with asleep := true }.quiet = true
      ∧ { State.reset with asleep := true }.runEnded = true) := by decide
theorem test_witness_StepKeepsInvariant :
    State.Inv { running 0x0000 0x008C 0x00 with w := 0x5A, status := 0x10 }
    ∧ goesOn (step { running 0x0000 0x008C 0x00 with w := 0x5A, status := 0x10 }) = true :=
  ⟨⟨by decide, by decide, by decide, by decide, by decide⟩, by decide⟩
theorem test_witness_EncodeOfDecode : decode 0x017F = .ok .clrw ∧ 0x017F#14 &&& xBits .clrw ≠ 0
    ∧ decode 0x0100 = .ok .clrw ∧ 0x0100#14 &&& xBits .clrw = 0 := by decide
theorem test_witness_OpcodeTableIsExact :
    (⟨"NOP", 0x0000, 0x3F9F, fun _ => .nop⟩ : OpRow).matches 0x0060 = true := by decide
theorem test_witness_UnwrittenReadIsReported :
    (marked State.reset [.w]).cfg.uninitPolicy = .fault ∧ State.reset.cfg.uninitPolicy = .draw
    ∧ faultOf (exec (.addlw 1) (marked State.reset [.w])) = some (.uninitializedRead .w)
    ∧ goesOn (exec (.addlw 1) (marked State.reset [.c])) = true := by decide
theorem test_witness_MarksOnlyAddFaults :
    goesOn (step (marked (running 0x0000 0x3E01 0x00) [.c])) = true
    ∧ faultOf (step (marked (running 0x0000 0x3E01 0x00) [.w])) = some (.uninitializedRead .w) := by decide

end Sys2Proof.Machine
end

section
/-! PROOFS. The state's own statements: STATUS as a destination (R38), Push and Pop of the return
stack (R27 to R29), and the pending interrupts (R57). -/

namespace Sys2Proof.Machine

open Sys2Proof.Config (UnknownLoc)

/-! ### STATUS as a destination -/

theorem FlagUpdate.affectsAny_eq_false_iff {u : FlagUpdate} : u.affectsAny = false ↔ u = noFlags := by
  obtain ⟨z, dc, c⟩ := u
  simp [FlagUpdate.affectsAny, noFlags, and_assoc]

/-- STATUS after an instruction with the flag update `u` has stored `v` in it: the data write, then
the flags (R38, step (4) of R12). -/
def statusStored (u : FlagUpdate) (v old : Byte) : Byte := u.apply (statusAfterWrite u v old)

theorem State.writeReg_status (s : State) (x : ByteResult) (marks : List UnknownLoc) :
    ∃ t, s.writeReg .status x marks = .next t
      ∧ t.status = statusStored x.flags x.value s.status :=
  ⟨_, State.writeReg_of_not_eecon x marks rfl, rfl⟩

/-- Each bit of a byte stored in STATUS, by its place (R38). -/
theorem statusStored_getLsbD (u : FlagUpdate) (v old : Byte) {j : Nat} (hj : j < 8) :
    (statusStored u v old).getLsbD j =
      if 5 ≤ j then v.getLsbD j
      else if 3 ≤ j then old.getLsbD j
      else if u = noFlags then v.getLsbD j
      else (putFlags u old).getLsbD j := by
  unfold statusStored
  by_cases hu : u = noFlags
  · subst hu
    have hn : noFlags.affectsAny = false := rfl
    rw [noFlags_apply, statusAfterWrite_getLsbD _ _ _ _ hj]
    grind
  · have ha : u.affectsAny = true := by
      simpa [hu] using FlagUpdate.affectsAny_eq_false_iff (u := u)
    have hold : ∀ i, i < 8 → (statusAfterWrite u v old).getLsbD i =
        if 5 ≤ i then v.getLsbD i else old.getLsbD i := by
      intro i hi
      simp [statusAfterWrite_getLsbD _ _ _ _ hi, ha]
    rw [← FlagUpdate.apply_eq_putFlags, FlagUpdate.apply_getLsbD, FlagUpdate.apply_getLsbD,
      hold j hj, hold 0 (by omega), hold 1 (by omega), hold 2 (by omega)]
    grind

/-- Two bytes that agree bit by bit on a range have the same bits there. -/
theorem extractLsb'_eq_of_getLsbD {m : Nat} {a b : BitVec m} (start len : Nat)
    (h : ∀ i, i < len → a.getLsbD (start + i) = b.getLsbD (start + i)) :
    a.extractLsb' start len = b.extractLsb' start len := by
  apply BitVec.eq_of_getLsbD_eq
  intro i hi
  simp [hi, h i hi]

theorem statusStored_bank_bits (u : FlagUpdate) (v old : Byte) :
    (statusStored u v old).extractLsb' 5 3 = v.extractLsb' 5 3 :=
  extractLsb'_eq_of_getLsbD 5 3 fun i hi => by
    rw [statusStored_getLsbD _ _ _ (by omega), if_pos (by omega)]

theorem statusStored_toPd (u : FlagUpdate) (v old : Byte) :
    (statusStored u v old).extractLsb' 3 2 = old.extractLsb' 3 2 :=
  extractLsb'_eq_of_getLsbD 3 2 fun i hi => by
    rw [statusStored_getLsbD _ _ _ (by omega), if_neg (by omega), if_pos (by omega)]

theorem statusStored_noFlags (v old : Byte) :
    (statusStored noFlags v old).extractLsb' 0 3 = v.extractLsb' 0 3 :=
  extractLsb'_eq_of_getLsbD 0 3 fun i hi => by
    rw [statusStored_getLsbD _ _ _ (by omega), if_neg (by omega), if_neg (by omega), if_pos rfl]

theorem statusStored_flags {u : FlagUpdate} (hu : u ≠ noFlags) (v old : Byte) :
    (statusStored u v old).getLsbD 2 = u.z.getD (old.getLsbD 2)
      ∧ (statusStored u v old).getLsbD 1 = u.dc.getD (old.getLsbD 1)
      ∧ (statusStored u v old).getLsbD 0 = u.c.getD (old.getLsbD 0) := by
  have hflag : ∀ j, j < 3 → (statusStored u v old).getLsbD j = (u.apply old).getLsbD j := by
    intro j hj
    rw [statusStored_getLsbD _ _ _ (by omega), if_neg (by omega), if_neg (by omega), if_neg hu,
      FlagUpdate.apply_eq_putFlags]
  simp only [FlagUpdate.apply_getLsbD] at hflag
  exact ⟨hflag 2 (by omega), hflag 1 (by omega), hflag 0 (by omega)⟩

/-- STATUS is at `f` = 03h in both banks (R79). -/
theorem State.operand_status (s : State) : s.operand 0x03 = .status := by
  unfold State.operand State.ea
  cases s.rp0 <;> rfl

/-- A direct CLRF depends on no unknown location (R59): it is the write of 0 with Z set (R125). -/
theorem execClrf_of_ne_zero {f : FileField} (hf : f ≠ 0) (s : State) :
    execClrf f s = s.advance.writeReg (s.operand f) (zResult 0x00)
      (writeMarks (s.operand f) (zResult 0x00).flags) := by
  have hneeds : pointerNeeds f = [] := if_neg hf
  have hk : s.advance.Known (pointerNeeds f ++ []) := by simp [hneeds, State.Known]
  unfold execClrf byteWriteOp
  rw [State.ifKnown_of_known _ hk, State.advance_operand]

/-- STATUS with 0 stored in it and Z set: `000u u1uu` (R38). -/
theorem statusStored_zero (old : Byte) :
    statusStored (zResult 0x00).flags 0x00 old
      = 0b000#3 ++ old.extractLsb' 3 2 ++ 1#1 ++ old.extractLsb' 0 2 := by
  apply BitVec.eq_of_getLsbD_eq
  intro j hj
  have hu : (zResult 0x00).flags ≠ noFlags := by decide
  rw [statusStored_getLsbD _ _ _ hj, if_neg hu, ← FlagUpdate.apply_eq_putFlags,
    FlagUpdate.apply_getLsbD]
  interval_cases j <;>
    simp only [zResult, BitVec.getLsbD_append, BitVec.getLsbD_extractLsb'] <;> simp

/-- Settles O24: what a data write reaches, then what the flags overwrite, bit by bit. -/
theorem statusAsDestination : Obligations.StatusAsDestination := by
  unfold Obligations.StatusAsDestination
  refine ⟨fun s x marks => ?_, fun s => ?_⟩
  · obtain ⟨t, hnext, hstatus⟩ := s.writeReg_status x marks
    refine ⟨t, hnext, ?_⟩
    rw [hstatus]
    exact ⟨statusStored_bank_bits _ _ _, statusStored_toPd _ _ _,
      fun hu => hu ▸ statusStored_noFlags _ _, fun hu => statusStored_flags hu _ _⟩
  · obtain ⟨t, hnext, hstatus⟩ :=
      s.advance.writeReg_status (zResult 0x00) (writeMarks .status (zResult 0x00).flags)
    refine ⟨t, ?_, hstatus.trans (statusStored_zero _)⟩
    calc exec (.clrf 0x03) s = execClrf 0x03 s := rfl
      _ = .next t := by rw [execClrf_of_ne_zero (by decide), State.operand_status, hnext]

/-! ### Push and Pop -/

/-- A push below the limit stores at the depth and adds one to it (R27). -/
theorem State.push_of_lt {s : State} (hp : s.cfg.stackPolicy = .fault) (v a : ProgAddr)
    (h : s.sp.val < 8) :
    s.push v a = .ok { s with
      stack := s.stack.set s.sp.val v h, sp := Fin.ofNat 9 (s.sp.val + 1) } := by
  have hsp : Fin.ofNat 9 (s.sp.val + 1) = ⟨s.sp.val + 1, by omega⟩ :=
    Fin.ext (Nat.mod_eq_of_lt (by omega))
  rw [hsp]
  simp [State.push, hp, h]

theorem State.push_of_full {s : State} (hp : s.cfg.stackPolicy = .fault) (v a : ProgAddr)
    (h : s.sp.val = 8) : s.push v a = .error (.stackOverflow a) := by
  simp [State.push, hp, h]

/-- A pop of a live entry returns it and takes one off the depth (R28). -/
theorem State.pop_of_succ {s : State} (hp : s.cfg.stackPolicy = .fault) (a : ProgAddr) {n : Nat}
    {v : ProgAddr} (hsp : s.sp.val = n + 1) (hv : s.stack[n]? = some v) :
    s.pop a = .ok (v, { s with sp := Fin.ofNat 9 n }) := by
  obtain ⟨hn, rfl⟩ := Vector.getElem?_eq_some_iff.1 hv
  have hdepth : Fin.ofNat 9 n = ⟨n, by omega⟩ := Fin.ext (Nat.mod_eq_of_lt (by omega))
  rw [hdepth]
  simp [State.pop, hp, hsp]

theorem State.pop_of_empty {s : State} (hp : s.cfg.stackPolicy = .fault) (a : ProgAddr)
    (h : s.sp.val = 0) : s.pop a = .error (.stackUnderflow a) := by
  simp [State.pop, hp, h]

/-- A circular push stores at the pointer and moves it, modulo 8 (R29). -/
theorem State.push_circular {s : State} (hp : s.cfg.stackPolicy = .circular) (v a : ProgAddr) :
    s.push v a = .ok { s with
      stack := s.stack.set s.stackPtr.val v s.stackPtr.isLt, stackPtr := s.stackPtr + 1 } := by
  simp [State.push, hp]

/-- A circular pop moves the pointer back, modulo 8, and returns the entry there (R29). -/
theorem State.pop_circular {s : State} (hp : s.cfg.stackPolicy = .circular) (a : ProgAddr)
    {p : Fin 8} {v : ProgAddr} (hptr : s.stackPtr = p + 1) (hv : s.stack[p.val]? = some v) :
    s.pop a = .ok (v, { s with stackPtr := p }) := by
  have hback : s.stackPtr - 1 = p := by rw [hptr, add_sub_cancel_right]
  obtain ⟨_, rfl⟩ := Vector.getElem?_eq_some_iff.1 hv
  simp [State.pop, hp, hback]

/-- A pop right after a push gives the entry back, with no limit on the depth (R29). -/
theorem State.pop_push_circular {s t : State} (hp : s.cfg.stackPolicy = .circular)
    {v a : ProgAddr} (h : s.push v a = .ok t) :
    t.pop a = .ok (v, { t with stackPtr := s.stackPtr }) := by
  have hpushed : t.cfg.stackPolicy = .circular ∧ t.stackPtr = s.stackPtr + 1
      ∧ t.stack[s.stackPtr.val]? = some v := by
    rw [State.push_circular hp] at h
    obtain rfl := Except.ok.inj h
    exact ⟨hp, rfl, by simp⟩
  obtain ⟨hpolicy, hptr, hentry⟩ := hpushed
  exact State.pop_circular hpolicy a hptr hentry

/-- Settles O28, policy by policy. -/
theorem pushAndPop : Obligations.PushAndPop := by
  unfold Obligations.PushAndPop
  refine ⟨fun s v a hp => ?fault, fun s v a hp => ?circular⟩
  case fault =>
    exact ⟨State.push_of_lt hp v a, State.push_of_full hp v a,
      fun _ _ hsp hv => State.pop_of_succ hp a hsp hv, State.pop_of_empty hp a⟩
  case circular =>
    exact ⟨State.push_circular hp v a, fun _ hv => State.pop_circular hp a (sub_add_cancel _ _).symm hv,
      fun _ h => State.pop_push_circular hp h⟩

/-! ### Pending interrupts -/

/-- Settles O38: the four sources of R211, in the order of the model's `pending`. -/
theorem pendingInterrupts : Obligations.PendingInterrupts := by
  unfold Obligations.PendingInterrupts
  intro s
  simp [State.pending, or_assoc]

end Sys2Proof.Machine
end

section
/-! PROOFS. The file register's own statements: the address of an `f` field (R75, R76), the register
an address names (R79), a read (R80), and a write to PCL (R83). -/

namespace Sys2Proof.Machine

open Sys2Proof.Config (UnknownLoc)

/-! ### The address of an `f` field -/

theorem State.ea_zero (s : State) : s.ea 0 = s.fsr := if_pos rfl

theorem State.ea_of_ne_zero (s : State) {f : FileField} (hf : f ≠ 0) :
    s.ea f = BitVec.ofBool s.rp0 ++ f := if_neg hf

/-- A 7-bit field under one bit is the field, plus 128 when the bit is set. -/
theorem toNat_ofBool_append (b : Bool) (f : FileField) :
    (BitVec.ofBool b ++ f).toNat = (if b = true then 128 else 0) + f.toNat := by
  have hor : (BitVec.ofBool b ++ f).toNat = b.toNat <<< 7 + f.toNat := by
    rw [BitVec.toNat_append, BitVec.toNat_ofBool, Nat.shiftLeft_add_eq_or_of_lt f.isLt]
  rw [hor]
  cases b <;> rfl

/-- FSR and RP0 are all of the state that an address depends on (R76). -/
theorem State.ea_congr {s t : State} (hrp0 : s.rp0 = t.rp0) (hfsr : s.fsr = t.fsr) (f : FileField) :
    s.ea f = t.ea f := by
  unfold State.ea
  rw [hfsr, hrp0]

/-- Two bytes that differ in bits 7 and 6 alone have the same RP0. -/
theorem getLsbD_five_of_and_eq {a b : Byte} (h : a &&& 0x3F = b &&& 0x3F) :
    a.getLsbD 5 = b.getLsbD 5 := by
  have hbit := congrArg (fun v : Byte => v.getLsbD 5) h
  simpa using hbit

/-- INDF reached through itself has no storage (R79). -/
theorem State.operand_indf {s : State} (h : s.fsr = 0x00 ∨ s.fsr = 0x80) :
    s.operand 0 = .absent := by
  unfold State.operand
  rw [State.ea_zero]
  obtain h | h := h <;> rw [h] <;> rfl

/-- Settles O18: of STATUS only RP0 takes part in an address. -/
theorem effectiveAddress : Obligations.EffectiveAddress := by
  unfold Obligations.EffectiveAddress
  refine ⟨State.ea_zero, fun f s hf => ?banked, fun f s b hb => ?irpRp1, fun s => State.operand_indf⟩
  case banked => rw [State.ea_of_ne_zero s hf, toNat_ofBool_append]; rfl
  case irpRp1 =>
    have hrp0 : State.rp0 { s with status := b } = s.rp0 := getLsbD_five_of_and_eq hb
    exact State.ea_congr hrp0 rfl f

/-! ### The register an address names -/

/-- Every special register lies below 0Ch in its bank: above, an address names a GPR or nothing. -/
theorem phys_of_twelve_le {a : DataAddr} (h : 0x0C ≤ a.toNat % 0x80) :
    phys a = if a.toNat ≤ 0x4F then .gpr a
      else if 0x8C ≤ a.toNat ∧ a.toNat ≤ 0xCF then .gpr (a - 0x80) else .absent := by
  have hlow : 0x0C ≤ a.toNat := h.trans (Nat.mod_le _ _)
  unfold phys
  split
  any_goals omega
  simp [hlow]

/-- Settles O19: the special addresses one by one, the others by their range. -/
theorem dataAddressMap : Obligations.DataAddressMap := by
  unfold Obligations.DataAddressMap
  refine ⟨by decide, fun a hlo hhi => ?bank0, fun a hlo hhi => ?bank1, fun a hlo hhi => ?above0,
    fun a hlo => ?above1⟩
  case bank0 => rw [phys_of_twelve_le (by omega), if_pos hhi]
  case bank1 => rw [phys_of_twelve_le (by omega), if_neg (by omega), if_pos ⟨hlo, hhi⟩]
  case above0 => rw [phys_of_twelve_le (by omega), if_neg (by omega), if_neg (by omega)]
  case above1 => rw [phys_of_twelve_le (by omega), if_neg (by omega), if_neg (by omega)]

/-! ### A read of a register -/

/-- Bits 7:5 of a 5-bit register read as 0 (R80). -/
theorem low5_eq_setWidth (v : BitVec 5) : low5 v = v.setWidth 8 :=
  (BitVec.setWidth_eq_append (by omega)).symm

/-- A read of PCL gives the low byte of the address after the instruction (R23). -/
theorem State.advance_regValue_pcl (s : State) :
    s.advance.regValue .pcl = (s.pc + 1).setWidth 8 :=
  (BitVec.setWidth_eq_extractLsb' (by omega)).symm

/-- Only a read of PORTB has a side effect (R80). -/
theorem State.afterRead_of_ne (s : State) {r : Reg} (h : r ≠ .portB) : s.afterRead r = s := by
  unfold State.afterRead
  split
  · exact absurd rfl h
  · rfl

/-- Settles O20: the registers of 8 bits as they are, those of 5 bits widened, PCL from the pc. -/
theorem registerRead : Obligations.RegisterRead := by
  unfold Obligations.RegisterRead
  intro s
  exact ⟨rfl, rfl, s.advance_regValue_pcl, rfl, low5_eq_setWidth _, low5_eq_setWidth _, rfl,
    low5_eq_setWidth _, low5_eq_setWidth _, rfl, rfl, rfl, rfl, rfl, rfl, rfl, fun _ => rfl,
    fun _ => s.afterRead_of_ne, rfl⟩

/-! ### A write to PCL -/

/-- Neither the hardware PC nor the cycle count is watched (R59). -/
theorem State.advance_known {s : State} {needs : List UnknownLoc} :
    s.advance.Known needs ↔ s.Known needs := Iff.rfl

/-- With what it depends on known, a byte-oriented instruction reads, computes and writes (R120). -/
theorem byteOp_of_known {needs : List UnknownLoc} {f : FileField} {s : State}
    (hk : s.Known (pointerNeeds f ++ s.readNeeds (s.operand f) ++ needs))
    (op : Byte → ByteResult) (d : Dest) :
    byteOp needs op d f s = (s.advance.afterRead (s.operand f)).writeDest d (s.operand f)
      (op (s.advance.regValue (s.operand f))) := by
  unfold byteOp
  dsimp only
  rw [State.advance_operand, State.advance_readNeeds,
    State.ifKnown_of_known _ (State.advance_known.2 hk)]

/-- A skip instruction with PCL as destination has no meaning in the spec (R83). -/
theorem byteSkipOp_pcl {f : FileField} {s : State} (hr : s.operand f = .pcl)
    (hk : s.Known (pointerNeeds f)) (op : Byte → Byte) :
    byteSkipOp op .f f s = .fault (.unmodelled .skipWithPclDestination s.pc) := by
  have hneeds : s.advance.Known (pointerNeeds f ++ s.advance.readNeeds .pcl) := by
    simpa only [State.readNeeds, List.append_nil] using State.advance_known.2 hk
  unfold byteSkipOp
  dsimp only
  rw [State.advance_operand, hr, State.ifKnown_of_known _ hneeds, if_pos ⟨rfl, rfl⟩,
    State.advance_instrAddr]

/-- A write to PCL goes on at `PCLATH : v`, in two cycles, with the flags of the result (R83). -/
theorem State.writeReg_pcl (s : State) (x : ByteResult) (marks : List UnknownLoc) :
    ∃ t, s.writeReg .pcl x marks = .next t ∧ t.pc = s.pclath ++ x.value ∧ t.cyc = 2
      ∧ t.status = putFlags x.flags s.status :=
  ⟨_, State.writeReg_of_not_eecon x marks rfl, rfl, rfl, x.flags.apply_eq_putFlags s.status⟩

/-- PCL is at `f` = 02h in both banks (R79). -/
theorem State.operand_pcl (s : State) : s.operand 0x02 = .pcl := by
  unfold State.operand State.ea
  cases s.rp0 <;> rfl

/-- ADDWF with PCL as destination writes W plus the low byte of the next address to PCL (R83). -/
theorem exec_addwf_pcl {s : State} (hk : s.Known [.w]) :
    exec (.addwf .f 0x02) s
      = s.advance.writeReg .pcl (add8 s.w ((s.pc + 1).setWidth 8))
          (writeMarks .pcl (add8 s.w ((s.pc + 1).setWidth 8)).flags) := by
  have hneeds : s.Known (pointerNeeds 0x02 ++ s.readNeeds (s.operand 0x02) ++ [.w]) := by
    rw [State.operand_pcl]
    exact hk
  calc exec (.addwf .f 0x02) s
      = byteOp [.w] (fun v => add8 s.w v) .f 0x02 s := rfl
    _ = _ := by
      rw [byteOp_of_known hneeds, State.operand_pcl, State.advance_regValue_pcl,
        State.afterRead_of_ne _ (by decide)]
      rfl

/-- The 8-bit sum wraps (R121). -/
theorem add8_value (a b : Byte) : (add8 a b).value = a + b := (BitVec.add_def a b).symm

/-- The carry of an addition is C after its flags are written (R121). -/
theorem putFlags_add8_carry (a b old : Byte) :
    (putFlags (add8 a b).flags old).getLsbD 0 = true ↔ 256 ≤ a.toNat + b.toNat := by
  rw [← FlagUpdate.apply_eq_putFlags, FlagUpdate.apply_getLsbD, if_pos rfl]
  simp [add8]

/-- Settles O25: the write itself, ADDWF as an instance of it, and the skips that stop before it. -/
theorem writeToPclJumps : Obligations.WriteToPclJumps := by
  unfold Obligations.WriteToPclJumps
  refine ⟨State.writeReg_pcl, fun s hk => ?addwf, fun f s hr hk => ?skip⟩
  case addwf =>
    obtain ⟨t, hnext, hpc, hcyc, hstatus⟩ := s.advance.writeReg_pcl
      (add8 s.w ((s.pc + 1).setWidth 8)) (writeMarks .pcl (add8 s.w ((s.pc + 1).setWidth 8)).flags)
    refine ⟨t, (exec_addwf_pcl hk).trans hnext, ?_, hcyc, ?_⟩
    · rw [hpc, add8_value, State.advance_pclath, BitVec.add_comm]
    · rw [hstatus, putFlags_add8_carry, Nat.add_comm]
  case skip =>
    exact ⟨byteSkipOp_pcl hr hk (fun v => v - 1), byteSkipOp_pcl hr hk (fun v => v + 1)⟩

end Sys2Proof.Machine
end

section
/-! PROOFS. The byte-oriented instructions with a destination bit: their source form (R117), their
words (R101), the arithmetic of R121, and their effect on every register (R120 to R139). -/

namespace Sys2Proof.Machine

open Sys2Proof.Config (UnknownLoc)

/-! ### Source form and words -/

/-- A mnemonic whose check is that of the form `f,d` has the form and its ranges (R117). -/
theorem formFD_of_check {m : Mnemonic} {mk : Dest → FileField → Instr}
    (h : ∀ l, (SourceLine.mk m l).check = checkFD mk l) : SyntaxFD m mk := by
  intro f d
  rw [h, checkFD]
  by_cases hf : f ≤ 127
  · simp only [hf, if_true, true_and]
  · simp only [hf, if_false, false_and]

/-- The two readings of bit 7 agree (R108, R120). -/
theorem wordD_eq_fieldD (w : InstrWord) : wordD w = fieldD w := by
  simp only [wordD, fieldD, BitVec.getLsbD_eq_extractLsb', beq_iff_eq]

/-- The fields of format B side by side are their sum by weight (R101, R108). -/
theorem opcode_append_fields (op : BitVec 6) (d : Dest) (f : FileField) :
    op ++ d.bit ++ f = (op ++ 0#8 : InstrWord) + weightD d + f.setWidth 14 := by
  apply BitVec.eq_of_toNat_eq
  have hop := op.isLt
  have hf := f.isLt
  have hbit : d.bit.toNat < 2 ^ 1 := d.bit.isLt
  have hleft : (op ++ d.bit ++ f).toNat = (op.toNat * 2 + d.bit.toNat) * 128 + f.toNat := by
    rw [BitVec.toNat_append, BitVec.toNat_append, ← Nat.shiftLeft_add_eq_or_of_lt f.isLt,
      ← Nat.shiftLeft_add_eq_or_of_lt d.bit.isLt, Nat.shiftLeft_eq, Nat.shiftLeft_eq]
  have hop8 : (op ++ 0#8 : InstrWord).toNat = op.toNat * 256 := by
    rw [BitVec.toNat_append, BitVec.toNat_zero, Nat.or_zero, Nat.shiftLeft_eq]
  have hweight : (weightD d).toNat = d.bit.toNat * 128 := by cases d <;> rfl
  rw [hleft, BitVec.toNat_add, BitVec.toNat_add, hop8, hweight, BitVec.toNat_setWidth]
  omega

/-- A row of format B codes its instruction (R101, R119); `n` is its place in the table of R114. -/
theorem codedB {n : Nat} {name : String} {pattern : InstrWord} {mk : Dest → FileField → Instr}
    {op : BitVec 6}
    (hrow : opRows[n]? = some ⟨name, pattern, 0x3F00, fun w => mk (fieldD w) (fieldF w)⟩)
    (hop : op ++ 0#8 = pattern) (henc : ∀ d f, encode (mk d f) = op ++ d.bit ++ f) :
    CodedB pattern mk := by
  refine ⟨fun w hw => ?word, fun d f => ?canonical⟩
  case word =>
    simp only [wordD_eq_fieldD]
    exact decode_of_row (List.mem_of_getElem? hrow) hw
  case canonical => rw [henc, opcode_append_fields, hop]

/-! ### Arithmetic (R121) -/

/-- The complement of a byte, as R121 and R127 write it. -/
theorem xor_ff (v : Byte) : v ^^^ 0xFF = ~~~v := BitVec.xor_allOnes

theorem toNat_xor_ff (v : Byte) : (v ^^^ 0xFF).toNat = 255 - v.toNat := by
  rw [xor_ff, BitVec.toNat_not]

theorem add8_flags (a b : Byte) : (add8 a b).flags = {
    z := some (decide (a + b = 0)),
    dc := some (decide (16 ≤ a.toNat % 16 + b.toNat % 16)),
    c := some (decide (256 ≤ a.toNat + b.toNat)) } := by
  rw [← add8_value]
  rfl

/-- Adding the two's complement is subtracting (R121). -/
theorem sub8_value (m s : Byte) : (sub8 m s).value = m - s := by
  have hm := m.isLt
  have hs := s.isLt
  have hvalue : (sub8 m s).value = BitVec.ofNat 8 (m.toNat + (255 - s.toNat) + 1) := by
    rw [← toNat_xor_ff]
    rfl
  rw [hvalue]
  bv_omega

/-- The carries of the complement addition are 1 when the minuend's part is not the smaller (R121). -/
theorem sub8_flags (m s : Byte) : (sub8 m s).flags = {
    z := some (decide (m - s = 0)),
    dc := some (decide (s.toNat % 16 ≤ m.toNat % 16)),
    c := some (decide (s.toNat ≤ m.toNat)) } := by
  have hs := s.isLt
  have hdc : 16 ≤ m.toNat % 16 + (255 - s.toNat) % 16 + 1 ↔ s.toNat % 16 ≤ m.toNat % 16 := by omega
  have hc : 256 ≤ m.toNat + (255 - s.toNat) + 1 ↔ s.toNat ≤ m.toNat := by omega
  have hflags : (sub8 m s).flags = {
      z := some (decide ((sub8 m s).value = 0)),
      dc := some (decide (16 ≤ m.toNat % 16 + (s ^^^ 0xFF).toNat % 16 + 1)),
      c := some (decide (256 ≤ m.toNat + (s ^^^ 0xFF).toNat + 1)) } := rfl
  simp only [hflags, sub8_value, toNat_xor_ff, hdc, hc]

/-- Settles O27: the carries of the addition, and of the complement addition as no borrow. -/
theorem arithmeticFunctions : Obligations.ArithmeticFunctions := by
  unfold Obligations.ArithmeticFunctions
  exact fun a b => ⟨add8_value a b, add8_flags a b, sub8_value a b, sub8_flags a b⟩

/-! ### The writes at the end of an instruction, as one change of the state -/

theorem State.setW_applyFlags (s : State) (v : Byte) (u : FlagUpdate) :
    (s.setW v).applyFlags u = { s with
      w := v, status := putFlags u s.status, unwritten := s.marksAfter (.w :: u.locs) } := by
  have hmarks : (s.setW v).marksAfter u.locs = s.marksAfter (.w :: u.locs) :=
    State.markWritten_marksAfter { s with w := v } [.w] u.locs
  calc (s.setW v).applyFlags u
      = { s with w := v, status := u.apply s.status, unwritten := (s.setW v).marksAfter u.locs } := rfl
    _ = _ := by rw [hmarks, FlagUpdate.apply_eq_putFlags]

theorem State.markWritten_applyFlags (s : State) (ls : List UnknownLoc) (u : FlagUpdate) :
    (s.markWritten ls).applyFlags u = { s with
      status := putFlags u s.status, unwritten := s.marksAfter (ls ++ u.locs) } := by
  calc (s.markWritten ls).applyFlags u
      = { s with status := u.apply s.status, unwritten := (s.markWritten ls).marksAfter u.locs } := rfl
    _ = _ := by rw [State.markWritten_marksAfter, FlagUpdate.apply_eq_putFlags]

/-- A read leaves the marks alone (R59). -/
theorem State.afterRead_marksAfter (s : State) (r : Reg) (ls : List UnknownLoc) :
    (s.advance.afterRead r).marksAfter ls = s.marksAfter ls :=
  State.marksAfter_congr (by simp) (by simp) ls

/-- A read and a write of a register leave the marks to `markWritten` (R59). -/
theorem State.storeReg_marksAfter (s : State) (u : FlagUpdate) (v : Byte) (r : Reg)
    (ls : List UnknownLoc) :
    ((s.advance.afterRead r).storeReg u v r).marksAfter ls = s.marksAfter ls :=
  State.marksAfter_congr (by simp) (by simp) ls

theorem State.writeDest_w (s : State) (r : Reg) (x : ByteResult) :
    s.writeDest .w r x = .next ((s.setW x.value).applyFlags x.flags) := rfl

theorem State.writeDest_f (s : State) (r : Reg) (x : ByteResult) :
    s.writeDest .f r x = s.writeReg r x (writeMarks r x.flags) := rfl

/-- With `d` = 0 the register is read and the result goes to W (R120). -/
theorem State.writeDest_w_afterRead (s : State) (r : Reg) (x : ByteResult) :
    (s.advance.afterRead r).writeDest .w r x = .next { s.advance.afterRead r with
      w := x.value, status := putFlags x.flags s.status,
      unwritten := s.marksAfter (.w :: x.flags.locs) } := by
  rw [State.writeDest_w, State.setW_applyFlags, State.afterRead_marksAfter,
    State.afterRead_status, State.advance_status]

/-- With `d` = 1 the register is read and written (R120, R81). -/
theorem State.writeDest_f_afterRead (s : State) {r : Reg} (x : ByteResult)
    (hr : r.isEecon = false) :
    (s.advance.afterRead r).writeDest .f r x =
      let q := (s.advance.afterRead r).storeReg x.flags x.value r
      .next { q with
        status := putFlags x.flags q.status,
        unwritten := s.marksAfter (writeMarks r x.flags ++ x.flags.locs) } := by
  rw [State.writeDest_f, State.writeReg_of_not_eecon _ _ hr, State.markWritten_applyFlags,
    State.storeReg_marksAfter]

/-- EECON1 and EECON2 as destination stop the run (R228). -/
theorem State.writeDest_eecon (s : State) {r : Reg} (x : ByteResult) (hr : r.isEecon = true) :
    (s.advance.afterRead r).writeDest .f r x = .fault (.unmodelled .eeprom s.pc) := by
  rw [State.writeDest_f, State.writeReg_of_eecon _ _ hr, State.afterRead_instrAddr,
    State.advance_instrAddr]

/-! ### The effect of the shape `byteOp` -/

/-- An instruction of the shape `byteOp` has the effect of its computation on every register (R120). -/
theorem byteEffect_of_byteOp {mk : Dest → FileField → Instr} {needs : List UnknownLoc}
    {val : State → Byte → Byte} {fl : State → Byte → FlagUpdate} (op : State → Byte → ByteResult)
    (hexec : ∀ d f s, exec (mk d f) s = byteOp needs (op s) d f s)
    (hop : ∀ s v, op s v = ⟨val s v, fl s v⟩) : ByteEffect mk needs val fl := by
  intro f s t r v hk
  have hdest : ∀ d, exec (mk d f) s = (t.afterRead r).writeDest d r ⟨val s v, fl s v⟩ := by
    intro d
    rw [hexec, byteOp_of_known hk, hop]
    rfl
  refine ⟨?toW, fun hr => ?toRegister, fun hr => ?eecon⟩
  case toW => rw [hdest, State.writeDest_w_afterRead]
  case toRegister => rw [hdest, State.writeDest_f_afterRead s _ hr]
  case eecon => rw [hdest, State.writeDest_eecon s _ hr]

/-- The same, when the instruction writes Z alone (R35). -/
theorem byteEffect_of_zResult {mk : Dest → FileField → Instr} {needs : List UnknownLoc}
    {val : State → Byte → Byte}
    (hexec : ∀ d f s, exec (mk d f) s = byteOp needs (fun v => zResult (val s v)) d f s) :
    ByteEffect mk needs val (fun s v => zOf (val s v)) :=
  byteEffect_of_byteOp (fun s v => zResult (val s v)) hexec fun _ _ => rfl

/-! ### The effect of the shape `byteSkipOp` -/

/-- With what it depends on known, and PCL not its destination, a counting instruction is a
byte-oriented instruction without flags, then a skip (R129, R131, R122). -/
theorem byteSkipOp_of_known {f : FileField} {s : State}
    (hk : s.Known (pointerNeeds f ++ s.readNeeds (s.operand f))) (op : Byte → Byte) {d : Dest}
    (hpcl : ¬ (d = .f ∧ s.operand f = .pcl)) :
    byteSkipOp op d f s =
      let v := op (s.advance.regValue (s.operand f))
      onNext (fun u => u.skipIf (v == 0))
        ((s.advance.afterRead (s.operand f)).writeDest d (s.operand f) (plainResult v)) := by
  unfold byteSkipOp
  dsimp only
  rw [State.advance_operand, State.advance_readNeeds,
    State.ifKnown_of_known _ (State.advance_known.2 hk), if_neg hpcl]

/-- The skip of an instruction that has not jumped, by the address before the instruction (R122). -/
theorem State.skipIf_of_advanced {q s : State} (hpc : q.pc = s.pc + 1) (hcyc : q.cyc = 1) (x : Byte) :
    q.skipIf (x == 0) = { q with
      pc := if x = 0 then s.pc + 2 else s.pc + 1, cyc := if x = 0 then 2 else 1 } := by
  by_cases hx : x = 0
  · have hskip : q.pc + 1 = s.pc + 2 := by rw [hpc, BitVec.add_assoc]; rfl
    simp only [hx, if_true, ← hskip]
    rfl
  · simp only [State.skipIf, beq_iff_eq, hx, if_false, ← hpc, ← hcyc]

/-- Without flags nothing but W and its mark is written (R39). -/
theorem State.setW_applyFlags_noFlags (s : State) (v : Byte) :
    (s.setW v).applyFlags noFlags = { s with w := v, unwritten := s.marksAfter [.w] } := by
  rw [State.setW_applyFlags, putFlags_noFlags]
  rfl

/-- Without flags nothing but the marks given is written (R39). -/
theorem State.markWritten_applyFlags_noFlags (s : State) (ls : List UnknownLoc) :
    (s.markWritten ls).applyFlags noFlags = { s with unwritten := s.marksAfter ls } := by
  have hlocs : noFlags.locs = [] := rfl
  rw [State.markWritten_applyFlags, putFlags_noFlags, hlocs, List.append_nil]

/-- An instruction of the shape `byteSkipOp` has the effect of its count on every register (R129,
R131). -/
theorem byteSkipEffect_of_byteSkipOp {mk : Dest → FileField → Instr} {op : Byte → Byte}
    (hexec : ∀ d f s, exec (mk d f) s = byteSkipOp op d f s) : ByteSkipEffect mk op := by
  intro f s t r x hk
  have hdest : ∀ d, ¬ (d = .f ∧ r = .pcl) → exec (mk d f) s
      = onNext (fun u => u.skipIf (x == 0)) ((t.afterRead r).writeDest d r (plainResult x)) := by
    intro d hpcl
    rw [hexec, byteSkipOp_of_known hk op hpcl]
    rfl
  have hpc : (t.afterRead r).pc = s.pc + 1 := State.afterRead_pc _ _
  have hcyc : (t.afterRead r).cyc = 1 := State.afterRead_cyc _ _
  refine ⟨?toW, fun hr hne => ?toRegister, fun hr => ?eecon, fun hr => ?pcl⟩
  case toW =>
    rw [hdest .w (by simp), State.writeDest_w, onNext_next, plainResult,
      State.setW_applyFlags_noFlags, State.afterRead_marksAfter]
    refine congrArg Host.Outcome.next (State.skipIf_of_advanced ?_ ?_ x)
    exacts [hpc, hcyc]
  case toRegister =>
    obtain ⟨hpcStore, hcycStore⟩ :=
      State.storeReg_pc_of_ne (s := t.afterRead r) (u := noFlags) (v := x) hne
    rw [hdest .f (by simp [hne]), State.writeDest_f, State.writeReg_of_not_eecon _ _ hr, onNext_next,
      plainResult, State.markWritten_applyFlags_noFlags, State.storeReg_marksAfter]
    refine congrArg Host.Outcome.next (State.skipIf_of_advanced ?_ ?_ x)
    exacts [hpcStore.trans hpc, hcycStore.trans hcyc]
  case eecon =>
    have hne : r ≠ .pcl := by
      intro hpcl
      rw [hpcl] at hr
      exact absurd hr (by decide)
    rw [hdest .f (by simp [hne]), State.writeDest_eecon s _ hr, onNext_fault]
  case pcl =>
    have hneeds : s.Known (pointerNeeds f) :=
      fun hp l hl => hk hp l (List.mem_append_left _ hl)
    exact (hexec .f f s).trans (byteSkipOp_pcl (s := s) hr hneeds op)

/-! ### Rotations and swap -/

/-- RLF is the 9 bits `C : v` moved left by one place (R135). -/
theorem rotateLeft_eq (v : Byte) (c : Bool) : rotateLeft v c =
    ⟨v.extractLsb' 0 7 ++ BitVec.ofBool c, { z := none, dc := none, c := some (v.getLsbD 7) }⟩ := by
  have hvalue : setBit 0 c (v <<< 1) = v.extractLsb' 0 7 ++ BitVec.ofBool c := by
    apply BitVec.eq_of_getLsbD_eq
    intro j hj
    rw [setBit_getLsbD _ _ _ _ (by omega), BitVec.getLsbD_append, BitVec.getLsbD_shiftLeft,
      BitVec.getLsbD_extractLsb', BitVec.getLsbD_ofBool]
    by_cases hj0 : j = 0
    · simp [hj0]
    · simp [hj0, hj, show j - 1 < 7 by omega]
  rw [← hvalue]
  rfl

/-- RRF is the 9 bits `C : v` moved right by one place (R136). -/
theorem rotateRight_eq (v : Byte) (c : Bool) : rotateRight v c =
    ⟨BitVec.ofBool c ++ v.extractLsb' 1 7, { z := none, dc := none, c := some (v.getLsbD 0) }⟩ := by
  have hvalue : setBit 7 c (v >>> 1) = BitVec.ofBool c ++ v.extractLsb' 1 7 := by
    apply BitVec.eq_of_getLsbD_eq
    intro j hj
    rw [setBit_getLsbD _ _ _ _ (by omega), BitVec.getLsbD_append, BitVec.getLsbD_ushiftRight,
      BitVec.getLsbD_extractLsb', BitVec.getLsbD_ofBool]
    by_cases hj7 : j = 7
    · simp [hj7]
    · simp [hj7, show j < 7 by omega]
  rw [← hvalue]
  rfl

/-- The nibbles exchanged, as two shifts (R138). -/
theorem swapNibbles_eq (v : Byte) : swapNibbles v = (v <<< 4) ||| (v >>> 4) := by
  unfold swapNibbles
  apply BitVec.eq_of_getLsbD_eq
  intro j hj
  rw [BitVec.getLsbD_append, BitVec.getLsbD_or, BitVec.getLsbD_shiftLeft,
    BitVec.getLsbD_ushiftRight, BitVec.getLsbD_extractLsb', BitVec.getLsbD_extractLsb']
  by_cases hlow : j < 4
  · simp [hlow]
  · simp [hlow, hj, show j - 4 < 4 by omega, BitVec.getLsbD_of_ge v (4 + j) (by omega)]

/-! ### The instructions -/

/-- `Add8` with Z told from the sum's residue (R121). -/
theorem add8_eq (a b : Byte) : add8 a b = ⟨BitVec.ofNat 8 (a.toNat + b.toNat), {
    z := some (decide ((a.toNat + b.toNat) % 256 = 0)),
    dc := some (decide (16 ≤ a.toNat % 16 + b.toNat % 16)),
    c := some (decide (256 ≤ a.toNat + b.toNat)) }⟩ := by
  have hz : a + b = 0 ↔ (a.toNat + b.toNat) % 256 = 0 := by bv_omega
  have hflags := add8_flags a b
  simp only [hz] at hflags
  rw [← hflags]
  rfl

/-- `Sub8` with Z told as equality of the operands (R121). -/
theorem sub8_eq (m s : Byte) : sub8 m s = ⟨m - s, {
    z := some (decide (m = s)),
    dc := some (decide (s.toNat % 16 ≤ m.toNat % 16)),
    c := some (decide (s.toNat ≤ m.toNat)) }⟩ := by
  have hz : m - s = 0 ↔ m = s := sub_eq_zero
  have hflags := sub8_flags m s
  simp only [hz] at hflags
  rw [← hflags, ← sub8_value]

/-- COMF on its operation, with the complement as one operator (R127). -/
theorem exec_comf (d : Dest) (f : FileField) (s : State) :
    exec (.comf d f) s = byteOp [] (fun v => zResult (~~~v)) d f s := by
  simp only [← xor_ff]
  rfl

/-- Settles O4: both results are those of the arithmetic functions of R121. -/
theorem addAndSubtractFile : Obligations.AddAndSubtractFile := by
  unfold Obligations.AddAndSubtractFile
  refine ⟨⟨formFD_of_check fun _ => rfl, codedB (n := 1) rfl rfl fun _ _ => rfl, ?addwf⟩,
    ⟨formFD_of_check fun _ => rfl, codedB (n := 31) rfl rfl fun _ _ => rfl, ?subwf⟩⟩
  case addwf =>
    exact byteEffect_of_byteOp (fun s v => add8 s.w v) (fun _ _ _ => rfl) fun s v => add8_eq s.w v
  case subwf =>
    exact byteEffect_of_byteOp (fun s v => sub8 v s.w) (fun _ _ _ => rfl) fun s v => sub8_eq v s.w

/-- Settles O5: each is the shape that writes Z alone. -/
theorem logicFile : Obligations.LogicFile := by
  unfold Obligations.LogicFile
  refine ⟨⟨formFD_of_check fun _ => rfl, codedB (n := 3) rfl rfl fun _ _ => rfl, ?andwf⟩,
    ⟨formFD_of_check fun _ => rfl, codedB (n := 19) rfl rfl fun _ _ => rfl, ?iorwf⟩,
    ⟨formFD_of_check fun _ => rfl, codedB (n := 34) rfl rfl fun _ _ => rfl, ?xorwf⟩⟩
  case andwf => exact byteEffect_of_zResult fun _ _ _ => rfl
  case iorwf => exact byteEffect_of_zResult fun _ _ _ => rfl
  case xorwf => exact byteEffect_of_zResult fun _ _ _ => rfl

/-- Settles O6: each is the shape that writes Z alone, and W is not read. -/
theorem unaryFile : Obligations.UnaryFile := by
  unfold Obligations.UnaryFile
  refine ⟨⟨formFD_of_check fun _ => rfl, codedB (n := 12) rfl rfl fun _ _ => rfl, ?comf⟩,
    ⟨formFD_of_check fun _ => rfl, codedB (n := 13) rfl rfl fun _ _ => rfl, ?decf⟩,
    ⟨formFD_of_check fun _ => rfl, codedB (n := 16) rfl rfl fun _ _ => rfl, ?incf⟩,
    ⟨formFD_of_check fun _ => rfl, codedB (n := 21) rfl rfl fun _ _ => rfl, ?movf⟩⟩
  case comf => exact byteEffect_of_zResult exec_comf
  case decf => exact byteEffect_of_zResult fun _ _ _ => rfl
  case incf => exact byteEffect_of_zResult fun _ _ _ => rfl
  case movf => exact byteEffect_of_zResult fun _ _ _ => rfl

/-- Settles O7: the rotations of nine bits and the exchange of the nibbles, on the shared shape. -/
theorem rotateAndSwapFile : Obligations.RotateAndSwapFile := by
  unfold Obligations.RotateAndSwapFile
  refine ⟨⟨formFD_of_check fun _ => rfl, codedB (n := 27) rfl rfl fun _ _ => rfl, ?rlf⟩,
    ⟨formFD_of_check fun _ => rfl, codedB (n := 28) rfl rfl fun _ _ => rfl, ?rrf⟩,
    ⟨formFD_of_check fun _ => rfl, codedB (n := 32) rfl rfl fun _ _ => rfl, ?swapf⟩⟩
  case rlf =>
    exact byteEffect_of_byteOp (fun s v => rotateLeft v s.flagC) (fun _ _ _ => rfl)
      fun s v => rotateLeft_eq v s.flagC
  case rrf =>
    exact byteEffect_of_byteOp (fun s v => rotateRight v s.flagC) (fun _ _ _ => rfl)
      fun s v => rotateRight_eq v s.flagC
  case swapf =>
    exact byteEffect_of_byteOp (fun _ v => plainResult (swapNibbles v)) (fun _ _ _ => rfl)
      fun _ v => congrArg plainResult (swapNibbles_eq v)

/-- Settles O9: both are the shape that counts and skips. -/
theorem countAndSkip : Obligations.CountAndSkip := by
  unfold Obligations.CountAndSkip
  refine ⟨⟨formFD_of_check fun _ => rfl, codedB (n := 14) rfl rfl fun _ _ => rfl, ?decfsz⟩,
    ⟨formFD_of_check fun _ => rfl, codedB (n := 17) rfl rfl fun _ _ => rfl, ?incfsz⟩⟩
  case decfsz => exact byteSkipEffect_of_byteSkipOp fun _ _ _ => rfl
  case incfsz => exact byteSkipEffect_of_byteSkipOp fun _ _ _ => rfl

end Sys2Proof.Machine
end

section
/-! PROOFS. The bit-oriented instructions: their source form (R117), their words (R103), and their
effect on every register and bit (R150 to R154). -/

namespace Sys2Proof.Machine

open Sys2Proof.Config (UnknownLoc)

/-! ### Source form and words -/

/-- A mnemonic whose check is that of the form `f,b` has the form and its ranges (R117). -/
theorem formFB_of_check {m : Mnemonic} {mk : BitField → FileField → Instr}
    (h : ∀ l, (SourceLine.mk m l).check = checkFB mk l) : SyntaxFB m mk := by
  intro f b
  rw [h, checkFB]

/-- The fields of format T side by side are their sum by weight (R103, R108). -/
theorem opcode_append_bit_fields (op : BitVec 4) (b : BitField) (f : FileField) :
    op ++ b ++ f = (op ++ 0#10 : InstrWord) + (b.setWidth 14 <<< 7) + f.setWidth 14 := by
  apply BitVec.eq_of_toNat_eq
  have hop := op.isLt
  have hb := b.isLt
  have hf := f.isLt
  have hleft : (op ++ b ++ f).toNat = (op.toNat * 8 + b.toNat) * 128 + f.toNat := by
    rw [BitVec.toNat_append, BitVec.toNat_append, ← Nat.shiftLeft_add_eq_or_of_lt f.isLt,
      ← Nat.shiftLeft_add_eq_or_of_lt b.isLt, Nat.shiftLeft_eq, Nat.shiftLeft_eq]
  have hop10 : (op ++ 0#10 : InstrWord).toNat = op.toNat * 1024 := by
    rw [BitVec.toNat_append, BitVec.toNat_zero, Nat.or_zero, Nat.shiftLeft_eq]
  rw [hleft, BitVec.toNat_add, BitVec.toNat_add, hop10, BitVec.toNat_shiftLeft,
    BitVec.toNat_setWidth, BitVec.toNat_setWidth, Nat.shiftLeft_eq]
  omega

/-- A row of format T codes its instruction (R103, R119); `n` is its place in the table of R114. -/
theorem codedT {n : Nat} {name : String} {pattern : InstrWord} {mk : BitField → FileField → Instr}
    {op : BitVec 4}
    (hrow : opRows[n]? = some ⟨name, pattern, 0x3C00, fun w => mk (fieldB w) (fieldF w)⟩)
    (hop : op ++ 0#10 = pattern) (henc : ∀ b f, encode (mk b f) = op ++ b ++ f) :
    CodedT pattern mk := by
  refine ⟨fun w hw => ?word, fun b f => ?canonical⟩
  case word => exact decode_of_row (List.mem_of_getElem? hrow) hw
  case canonical => rw [henc, opcode_append_bit_fields, hop]

/-! ### BCF and BSF: the shape `bitWriteOp` -/

/-- Clearing a bit keeps the others by a mask, as R151 writes it. -/
theorem setBit_false_eq (i : Nat) (v : Byte) : setBit i false v = v &&& (0xFF ^^^ (1#8 <<< i)) := by
  rw [BitVec.xor_comm, xor_ff]
  rfl

/-- Setting a bit adds it by a mask (R152). -/
theorem setBit_true_eq (i : Nat) (v : Byte) : setBit i true v = v ||| (1#8 <<< i) := rfl

/-- With what it depends on known, the register is read, one bit changed, and the whole register
written back (R150, R82). -/
theorem bitWriteOp_of_known {b : BitField} {f : FileField} {s : State}
    (hk : s.Known (pointerNeeds f ++ s.bitWriteNeeds (s.operand f))) (v : Bool) :
    bitWriteOp v b f s = (s.advance.afterRead (s.operand f)).writeReg (s.operand f)
      (plainResult (setBit b.toNat v (s.advance.regValue (s.operand f))))
      (bitWriteMarks (s.operand f) b) := by
  unfold bitWriteOp
  dsimp only
  rw [State.advance_operand, State.advance_bitWriteNeeds,
    State.ifKnown_of_known _ (State.advance_known.2 hk)]

/-- A register read and written back without flags changes by the write and its marks alone (R81,
R39). -/
theorem State.writeReg_plain_afterRead (s : State) {r : Reg} (x : Byte) (marks : List UnknownLoc)
    (hr : r.isEecon = false) :
    (s.advance.afterRead r).writeReg r (plainResult x) marks
      = .next { (s.advance.afterRead r).storeReg noFlags x r with
          unwritten := s.marksAfter marks } := by
  rw [State.writeReg_of_not_eecon _ _ hr, plainResult, State.markWritten_applyFlags_noFlags,
    State.storeReg_marksAfter]

/-- EECON1 and EECON2 stop the run at the write, after the read (R228). -/
theorem State.writeReg_eecon_afterRead (s : State) {r : Reg} (x : ByteResult)
    (marks : List UnknownLoc) (hr : r.isEecon = true) :
    (s.advance.afterRead r).writeReg r x marks = .fault (.unmodelled .eeprom s.pc) := by
  rw [State.writeReg_of_eecon _ _ hr, State.afterRead_instrAddr, State.advance_instrAddr]

/-- An instruction of the shape `bitWriteOp` has the effect of its mask on every register (R151,
R152). -/
theorem bitWriteEffect_of_bitWriteOp {mk : BitField → FileField → Instr} {v : Bool}
    {val : Byte → BitField → Byte} (hexec : ∀ b f s, exec (mk b f) s = bitWriteOp v b f s)
    (hval : ∀ x b, setBit b.toNat v x = val x b) : BitWriteEffect mk val := by
  intro b f s t r hk
  have hwrite : exec (mk b f) s = (t.afterRead r).writeReg r
      (plainResult (val (t.regValue r) b)) (bitWriteMarks r b) := by
    rw [hexec, bitWriteOp_of_known hk, hval]
    rfl
  refine ⟨fun hr => ?toRegister, fun hr => ?eecon⟩
  case toRegister => rw [hwrite, State.writeReg_plain_afterRead s _ _ hr]
  case eecon => rw [hwrite, State.writeReg_eecon_afterRead s _ _ hr]

/-- Settles O10: both are the shape that changes one bit, by the masks of R151 and R152. -/
theorem clearAndSetBit : Obligations.ClearAndSetBit := by
  unfold Obligations.ClearAndSetBit
  refine ⟨⟨formFB_of_check fun _ => rfl, codedT (n := 4) rfl rfl fun _ _ => rfl, ?bcf⟩,
    ⟨formFB_of_check fun _ => rfl, codedT (n := 5) rfl rfl fun _ _ => rfl, ?bsf⟩⟩
  case bcf =>
    exact bitWriteEffect_of_bitWriteOp (fun _ _ _ => rfl) fun x b => setBit_false_eq b.toNat x
  case bsf =>
    exact bitWriteEffect_of_bitWriteOp (fun _ _ _ => rfl) fun x b => setBit_true_eq b.toNat x

/-! ### BTFSC and BTFSS: the shape `bitTestOp` -/

/-- With what it depends on known, the register is read, and the skip decided by the bit (R150). -/
theorem bitTestOp_of_known {b : BitField} {f : FileField} {s : State}
    (hk : s.Known (pointerNeeds f ++ s.bitNeeds (s.operand f) b)) (v : Bool) :
    bitTestOp v b f s = .next ((s.advance.afterRead (s.operand f)).skipIf
      ((s.advance.regValue (s.operand f)).getLsbD b.toNat == v)) := by
  unfold bitTestOp
  dsimp only
  rw [State.advance_operand, State.advance_bitNeeds,
    State.ifKnown_of_known _ (State.advance_known.2 hk)]

/-- A skip after a read, by the address before the instruction: two words on in two cycles, or one
in one (R122). -/
theorem State.afterRead_skipIf (s : State) (r : Reg) (bit v : Bool) :
    (s.advance.afterRead r).skipIf (bit == v) = { s.advance.afterRead r with
      pc := if bit = v then s.pc + 2 else s.pc + 1, cyc := if bit = v then 2 else 1 } := by
  have hpc : (s.advance.afterRead r).pc = s.pc + 1 := State.afterRead_pc _ _
  have hcyc : (s.advance.afterRead r).cyc = 1 := State.afterRead_cyc _ _
  by_cases hv : bit = v
  · have hskip : (s.advance.afterRead r).pc + 1 = s.pc + 2 := by rw [hpc, BitVec.add_assoc]; rfl
    simp only [State.skipIf, State.jump, beq_iff_eq, hv, if_true, hskip]
  · simp only [State.skipIf, beq_iff_eq, hv, if_false, ← hpc, ← hcyc]

/-- An instruction of the shape `bitTestOp` skips on every register by the bit it names (R153,
R154). -/
theorem bitTestEffect_of_bitTestOp {mk : BitField → FileField → Instr} {v : Bool}
    (hexec : ∀ b f s, exec (mk b f) s = bitTestOp v b f s) : BitTestEffect mk v := by
  intro b f s t r skips hk
  rw [hexec, bitTestOp_of_known hk]
  exact congrArg Host.Outcome.next (s.afterRead_skipIf r _ v)

/-- Settles O11: both are the shape that reads a bit and skips, on a 0 and on a 1. -/
theorem testBitAndSkip : Obligations.TestBitAndSkip := by
  unfold Obligations.TestBitAndSkip
  refine ⟨⟨formFB_of_check fun _ => rfl, codedT (n := 6) rfl rfl fun _ _ => rfl, ?btfsc⟩,
    ⟨formFB_of_check fun _ => rfl, codedT (n := 7) rfl rfl fun _ _ => rfl, ?btfss⟩⟩
  case btfsc => exact bitTestEffect_of_bitTestOp fun _ _ _ => rfl
  case btfss => exact bitTestEffect_of_bitTestOp fun _ _ _ => rfl

end Sys2Proof.Machine
end

section
/-! PROOFS. The literal instructions: their source form (R117), their words (R104), and their effect
on W, the flags and the pc (R160 to R166). -/

namespace Sys2Proof.Machine

open Sys2Proof.Config (UnknownLoc)

/-! ### Source form and words -/

/-- A mnemonic whose check is that of an 8-bit literal has the form and its range (R117). -/
theorem formK8_of_check {m : Mnemonic} {mk : Byte → Instr}
    (h : ∀ l, (SourceLine.mk m l).check = checkK8 mk l) : SyntaxK8 m mk := by
  intro k
  rw [h, checkK8]

/-- An opcode and a literal side by side are their sum by weight (R104, R108). -/
theorem opcode_append_literal (op : BitVec 6) (k : Byte) :
    op ++ k = (op ++ 0#8 : InstrWord) + k.setWidth 14 := by
  have happend (j : Byte) : (op ++ j).toNat = op.toNat * 256 + j.toNat := by
    rw [BitVec.toNat_append, ← Nat.shiftLeft_add_eq_or_of_lt j.isLt, Nat.shiftLeft_eq]
  apply BitVec.eq_of_toNat_eq
  rw [BitVec.toNat_add, happend, happend, BitVec.toNat_setWidth, BitVec.toNat_zero]
  omega

/-- A row of format L codes its instruction, whatever its `x` bits (R104, R105, R119); `n` is its
place in the table of R114. -/
theorem codedL {n : Nat} {name : String} {pattern mask : InstrWord} {mk : Byte → Instr} {op : BitVec 6}
    (hrow : opRows[n]? = some ⟨name, pattern, mask, fun w => mk (fieldK8 w)⟩)
    (hop : op ++ 0#8 = pattern) (henc : ∀ k, encode (mk k) = op ++ k) :
    CodedL pattern mask mk := by
  refine ⟨fun w hw => ?word, fun k => ?canonical⟩
  case word => exact decode_of_row (List.mem_of_getElem? hrow) hw
  case canonical => rw [henc, opcode_append_literal, hop]

/-! ### The effect of the shape `literalOp` -/

/-- With what it depends on known, a literal instruction writes W and its flags and moves on by one
word in one cycle (R160). -/
theorem literalOp_of_known {needs : List UnknownLoc} {s : State} (hk : s.Known needs)
    (x : ByteResult) :
    literalOp needs x s = .next { s with
      w := x.value, status := putFlags x.flags s.status, pc := s.pc + 1, cyc := 1,
      unwritten := s.marksAfter (.w :: x.flags.locs) } := by
  unfold literalOp
  rw [State.ifKnown_of_known _ (State.advance_known.2 hk), State.setW_applyFlags]
  rfl

/-- An instruction of the shape `literalOp` has the effect of its computation (R160). -/
theorem literalEffect_of_literalOp {mk : Byte → Instr} {needs : List UnknownLoc}
    {val : Byte → Byte → Byte} {fl : Byte → Byte → FlagUpdate} (op : Byte → Byte → ByteResult)
    (hexec : ∀ k s, exec (mk k) s = literalOp needs (op s.w k) s)
    (hop : ∀ w k, op w k = ⟨val w k, fl w k⟩) : LiteralEffect mk needs val fl := by
  intro k s hk
  rw [hexec, literalOp_of_known hk, hop]

/-- The same, when the instruction writes Z alone (R35). -/
theorem literalEffect_of_zResult {mk : Byte → Instr} {needs : List UnknownLoc}
    {val : Byte → Byte → Byte}
    (hexec : ∀ k s, exec (mk k) s = literalOp needs (zResult (val s.w k)) s) :
    LiteralEffect mk needs val (fun w k => zOf (val w k)) :=
  literalEffect_of_literalOp (fun w k => zResult (val w k)) hexec fun _ _ => rfl

/-! ### The instructions -/

/-- Settles O1: both results are those of the arithmetic functions of R121. -/
theorem addAndSubtractLiteral : Obligations.AddAndSubtractLiteral := by
  unfold Obligations.AddAndSubtractLiteral
  refine ⟨⟨formK8_of_check fun _ => rfl, codedL (n := 0) rfl rfl fun _ => rfl, ?addlw⟩,
    ⟨formK8_of_check fun _ => rfl, codedL (n := 30) rfl rfl fun _ => rfl, ?sublw⟩⟩
  case addlw => exact literalEffect_of_literalOp add8 (fun _ _ => rfl) add8_eq
  case sublw =>
    exact literalEffect_of_literalOp (fun w k => sub8 k w) (fun _ _ => rfl) fun w k => sub8_eq k w

/-- Settles O2: each is the shape that writes Z alone. -/
theorem logicLiteral : Obligations.LogicLiteral := by
  unfold Obligations.LogicLiteral
  refine ⟨⟨formK8_of_check fun _ => rfl, codedL (n := 2) rfl rfl fun _ => rfl, ?andlw⟩,
    ⟨formK8_of_check fun _ => rfl, codedL (n := 18) rfl rfl fun _ => rfl, ?iorlw⟩,
    ⟨formK8_of_check fun _ => rfl, codedL (n := 33) rfl rfl fun _ => rfl, ?xorlw⟩⟩
  case andlw => exact literalEffect_of_zResult fun _ _ => rfl
  case iorlw => exact literalEffect_of_zResult fun _ _ => rfl
  case xorlw => exact literalEffect_of_zResult fun _ _ => rfl

/-- Settles O3: the literal is the result, and nothing has to be known. -/
theorem moveLiteral : Obligations.MoveLiteral := by
  unfold Obligations.MoveLiteral
  refine ⟨formK8_of_check fun _ => rfl, codedL (n := 20) rfl rfl fun _ => rfl, ?movlw⟩
  case movlw =>
    exact literalEffect_of_literalOp (fun _ k => plainResult k) (fun _ _ => rfl) fun _ _ => rfl

end Sys2Proof.Machine
end

section
/-! PROOFS. The control transfers: their source form (R117), their words (R106, R107), and their
effect on the pc and the return stack under both stack policies (R170 to R175). -/

namespace Sys2Proof.Machine

/-! ### Source form and words -/

/-- A mnemonic whose check is that of an 11-bit literal has the form and its range (R117). -/
theorem formK11_of_check {m : Mnemonic} {mk : BitVec 11 → Instr}
    (h : ∀ l, (SourceLine.mk m l).check = checkK11 mk l) : SyntaxK11 m mk := by
  intro k
  rw [h, checkK11]

/-- A mnemonic whose check is that of the form without operands has that form (R117). -/
theorem formNone_of_check {m : Mnemonic} {i : Instr}
    (h : ∀ l, (SourceLine.mk m l).check = checkNone i l) : SyntaxNone m i := by
  intro l
  rw [h]
  cases l with
  | nil => rfl
  | cons _ _ => rfl

/-- An opcode and an 11-bit literal side by side are their sum by weight (R106, R108). -/
theorem opcode_append_address (op : BitVec 3) (k : BitVec 11) :
    op ++ k = (op ++ 0#11 : InstrWord) + k.setWidth 14 := by
  have happend (j : BitVec 11) : (op ++ j).toNat = op.toNat * 2048 + j.toNat := by
    rw [BitVec.toNat_append, ← Nat.shiftLeft_add_eq_or_of_lt j.isLt, Nat.shiftLeft_eq]
  apply BitVec.eq_of_toNat_eq
  rw [BitVec.toNat_add, happend, happend, BitVec.toNat_setWidth, BitVec.toNat_zero]
  omega

/-- A row of format J codes its instruction (R106, R119); `n` is its place in the table of R114. -/
theorem codedJ {n : Nat} {name : String} {pattern : InstrWord} {mk : BitVec 11 → Instr}
    {op : BitVec 3}
    (hrow : opRows[n]? = some ⟨name, pattern, 0x3800, fun w => mk (fieldK11 w)⟩)
    (hop : op ++ 0#11 = pattern) (henc : ∀ k, encode (mk k) = op ++ k) : CodedJ pattern mk := by
  refine ⟨fun w hw => ?word, fun k => ?canonical⟩
  case word => exact decode_of_row (List.mem_of_getElem? hrow) hw
  case canonical => rw [henc, opcode_append_address, hop]

/-- A row of format N codes its instruction, whatever its `x` bits (R105, R107, R119); `n` is its
place in the table of R114. -/
theorem codedN {n : Nat} {name : String} {pattern mask : InstrWord} {i : Instr}
    (hrow : opRows[n]? = some ⟨name, pattern, mask, fun _ => i⟩) (henc : encode i = pattern) :
    CodedN pattern mask i :=
  ⟨fun _ hw => decode_of_row (List.mem_of_getElem? hrow) hw, henc⟩

/-! ### CALL: a push, then a jump -/

/-- When the push succeeds, CALL jumps to its target (R171). -/
theorem exec_call_of_push_ok {k : BitVec 11} {s t : State}
    (h : s.advance.push (s.pc + 1) s.pc = .ok t) :
    exec (.call k) s = .next (t.jump (t.target k)) := by
  change execCall k s = _
  simp only [execCall, State.advance_pc, h]

/-- When the push faults, CALL faults as it does (R29, R171). -/
theorem exec_call_of_push_error {k : BitVec 11} {s : State} {e : Fault}
    (h : s.advance.push (s.pc + 1) s.pc = .error e) : exec (.call k) s = .fault e := by
  change execCall k s = _
  simp only [execCall, State.advance_pc, h]

/-- Settles O12: each outcome of CALL is the outcome of its push (R27, R29). -/
theorem callSubroutine : Obligations.CallSubroutine := by
  unfold Obligations.CallSubroutine
  refine ⟨formK11_of_check fun _ => rfl, codedJ (n := 8) rfl rfl fun _ => rfl,
    fun k s => ⟨?fault, ?circular⟩⟩
  case fault =>
    intro hp
    refine ⟨fun hroom => ?pushed, fun hfull => ?overflow⟩
    case pushed =>
      rw [exec_call_of_push_ok (State.push_of_lt (s := s.advance) hp _ _ hroom)]
      rfl
    case overflow =>
      exact exec_call_of_push_error (State.push_of_full (s := s.advance) hp _ _ hfull)
  case circular =>
    intro hp
    rw [exec_call_of_push_ok (State.push_circular (s := s.advance) hp _ _)]
    rfl

/-! ### GOTO -/

/-- Settles O13: the jump changes the pc and the cycle count and reads PCLATH alone. -/
theorem gotoAddress : Obligations.GotoAddress := by
  unfold Obligations.GotoAddress
  refine ⟨formK11_of_check fun _ => rfl, codedJ (n := 15) rfl rfl fun _ => rfl,
    fun k s => ?target⟩
  case target =>
    calc exec (.goto k) s = .next (s.advance.jump (s.target k)) := rfl
      _ = .next { s with pc := s.pclath.extractLsb' 3 2 ++ k, cyc := 2 } := rfl

/-! ### The returns: a pop, then a jump -/

theorem State.popReturn_of_pop_ok {s t : State} {a : ProgAddr}
    (h : s.pop s.instrAddr = .ok (a, t)) : s.popReturn = .next (t.jump a) := by
  simp [State.popReturn, h]

theorem State.popReturn_of_pop_error {s : State} {e : Fault}
    (h : s.pop s.instrAddr = .error e) : s.popReturn = .fault e := by
  simp [State.popReturn, h]

/-- A pop neither reads W nor writes it (R28). -/
theorem State.pop_setW (s : State) (v : Byte) (a : ProgAddr) :
    (s.setW v).pop a = (s.pop a).map fun p => (p.1, p.2.setW v) := by
  cases hp : s.cfg.stackPolicy with
  | fault =>
    cases hsp : s.sp.val with
    | zero =>
      rw [State.pop_of_empty (s := s.setW v) hp a hsp, State.pop_of_empty hp a hsp]
      rfl
    | succ n =>
      have hv : s.stack[n]? = some (s.stack[n]'(by omega)) := Vector.getElem?_eq_getElem (by omega)
      rw [State.pop_of_succ (s := s.setW v) hp a hsp hv, State.pop_of_succ hp a hsp hv]
      rfl
  | circular =>
    have hptr : s.stackPtr = (s.stackPtr - 1) + 1 := (sub_add_cancel _ _).symm
    have hv := Vector.getElem?_eq_getElem (xs := s.stack) (s.stackPtr - 1).isLt
    rw [State.pop_circular (s := s.setW v) hp a hptr hv, State.pop_circular hp a hptr hv]
    rfl

/-- So RETLW may as well write W after the pop (R174). -/
theorem State.popReturn_setW (s : State) (v : Byte) :
    (s.setW v).popReturn = onNext (fun t => t.setW v) s.popReturn := by
  have hpop : (s.setW v).pop (s.setW v).instrAddr
      = (s.pop s.instrAddr).map fun p => (p.1, p.2.setW v) := s.pop_setW v s.instrAddr
  cases h : s.pop s.instrAddr with
  | error e =>
    rw [h] at hpop
    rw [State.popReturn_of_pop_error hpop, State.popReturn_of_pop_error h, onNext_fault]
  | ok p =>
    rw [h] at hpop
    rw [State.popReturn_of_pop_ok hpop, State.popReturn_of_pop_ok h, onNext_next]
    rfl

/-- An instruction that returns, and then changes the state by `eff`, has the effect of a return
under both stack policies (R28, R29). -/
theorem returnEffect_of_popReturn {i : Instr} {eff : State → State}
    (hexec : ∀ s, exec i s = onNext eff s.advance.popReturn) : ReturnEffect i eff := by
  intro s
  refine ⟨fun hp => ⟨fun hempty => ?underflow, fun n a hdepth hentry => ?popped⟩,
    fun hp a hentry => ?circular⟩
  case underflow =>
    have hsp : s.advance.sp.val = 0 := by simp [hempty]
    rw [hexec, State.popReturn_of_pop_error (State.pop_of_empty (s := s.advance) hp _ hsp),
      onNext_fault, State.advance_instrAddr]
  case popped =>
    rw [hexec, State.popReturn_of_pop_ok (State.pop_of_succ (s := s.advance) hp _ hdepth hentry)]
    rfl
  case circular =>
    have hptr : s.advance.stackPtr = (s.stackPtr - 1) + 1 := (sub_add_cancel _ _).symm
    rw [hexec, State.popReturn_of_pop_ok (State.pop_circular (s := s.advance) hp _ hptr hentry)]
    rfl

/-- RETFIE is a return that sets bit 7 of INTCON, which is GIE (R47, R173). -/
theorem exec_retfie (s : State) : exec .retfie s =
    onNext (fun t => { t with intcon := t.intcon ||| 0x80 }) s.advance.popReturn := by
  simp only [← (setBit_intcon_gie _).1]
  rfl

theorem onNext_id (o : Result) : onNext id o = o := by
  cases o <;> rfl

/-- Settles O14: the three returns are one pop, with GIE, with W, and with nothing beside. -/
theorem returnInstructions : Obligations.ReturnInstructions := by
  unfold Obligations.ReturnInstructions
  refine ⟨⟨formNone_of_check fun _ => rfl, codedN (n := 24) rfl rfl, ?retfie⟩,
    ⟨formK8_of_check fun _ => rfl, codedL (n := 25) rfl rfl fun _ => rfl, fun k => ?retlw⟩,
    ⟨formNone_of_check fun _ => rfl, codedN (n := 26) rfl rfl, ?ret⟩⟩
  case retfie => exact returnEffect_of_popReturn exec_retfie
  case retlw => exact returnEffect_of_popReturn fun s => s.advance.popReturn_setW k
  case ret => exact returnEffect_of_popReturn fun s => (onNext_id s.advance.popReturn).symm

end Sys2Proof.Machine
end

section
/-! PROOFS. The system instructions: their source form (R117), their words (R107), and their effect on
every state (R181 to R183). -/

namespace Sys2Proof.Machine

/-- What CLRWDT and SLEEP begin with, field by field: the next pc, one cycle, the watchdog cleared, and
the prescaler with it when PSA gives it to the watchdog (R181, R183). -/
theorem State.advance_clearWatchdog (s : State) : s.advance.clearWatchdog = { s with
    wdt := 0, prescaler := if s.optionReg.getLsbD 3 = true then 0 else s.prescaler,
    pc := s.pc + 1, cyc := 1 } := rfl

/-- CLRWDT raises both `/TO` and `/PD`, bits 4 and 3 of STATUS (R30, R181). -/
theorem exec_clrwdt (s : State) : exec .clrwdt s =
    .next { s.advance.clearWatchdog with status := s.status ||| 0x18 } := by
  rw [← withToPd_clrwdt]
  rfl

/-- SLEEP raises `/TO`, lowers `/PD` and puts the core to sleep (R183). -/
theorem exec_sleep (s : State) : exec .sleep s =
    .next { s.advance.clearWatchdog with
      status := (s.status &&& 0xE7) ||| 0x10, asleep := true } := by
  rw [← withToPd_sleep]
  rfl

/-- Settles O15: the row, and the cleared watchdog with both bits of STATUS raised. -/
theorem clearWatchdogTimer : Obligations.ClearWatchdogTimer := by
  unfold Obligations.ClearWatchdogTimer
  refine ⟨formNone_of_check fun _ => rfl, codedN (n := 11) rfl rfl, fun s => ?effect⟩
  case effect => rw [exec_clrwdt, State.advance_clearWatchdog]

/-- Settles O16: the row, whose two `x` bits make its four words (R105), and the step of the pc. -/
theorem noOperation : Obligations.NoOperation := by
  unfold Obligations.NoOperation
  refine ⟨formNone_of_check fun _ => rfl, codedN (n := 23) rfl rfl, fun s => ?effect⟩
  case effect => rfl

/-- Settles O17: the row, and the cleared watchdog with `/TO` raised, `/PD` lowered and the core
asleep. -/
theorem enterSleep : Obligations.EnterSleep := by
  unfold Obligations.EnterSleep
  refine ⟨formNone_of_check fun _ => rfl, codedN (n := 29) rfl rfl, fun s => ?effect⟩
  case effect => rw [exec_sleep, State.advance_clearWatchdog]

end Sys2Proof.Machine
end

section
/-! PROOFS. The devices at a boundary and the interrupt: the reads of the ports (R226), the edge
detector of RB0/INT (R227), the change detector of RB7:RB4 (R225), the write inhibit of Timer0 (R222),
and interrupt entry (R212, R213). -/

namespace Sys2Proof.Machine

/-! ### The reads of the ports -/

/-- Each bit of two words put together by a mask comes from the first where the mask is 1. -/
theorem select_getLsbD {n : Nat} (a b mask : BitVec n) {i : Nat} (hi : i < n) :
    ((a &&& mask) ||| (b &&& ~~~mask)).getLsbD i
      = if mask.getLsbD i = true then a.getLsbD i else b.getLsbD i := by
  rw [BitVec.getLsbD_or, BitVec.getLsbD_and, BitVec.getLsbD_and, BitVec.getLsbD_not, decide_eq_true hi]
  cases mask.getLsbD i <;> simp

theorem State.portReadB_getLsbD (s : State) {i : Nat} (hi : i < 8) :
    s.portReadB.getLsbD i
      = if s.trisB.getLsbD i = true then s.pinB.getLsbD i else s.latB.getLsbD i :=
  select_getLsbD s.pinB s.latB s.trisB hi

/-- A pin of PORTA gives the outside level when it is an input, and RA4 also when its open drain does
not pull it low (R226). -/
theorem State.portReadA_getLsbD (s : State) {i : Nat} (hi : i < 5) :
    s.portReadA.getLsbD i
      = if s.trisA.getLsbD i = true ∨ (i = 4 ∧ s.latA.getLsbD 4 = true) then s.pinA.getLsbD i
        else s.latA.getLsbD i := by
  have houtside : (s.trisA ||| (s.latA &&& 0b10000)).getLsbD i = true
      ↔ s.trisA.getLsbD i = true ∨ (i = 4 ∧ s.latA.getLsbD 4 = true) := by
    interval_cases i <;> simp
  unfold State.portReadA
  simp only [select_getLsbD _ _ _ hi, houtside]

/-- Settles O26: the bits of both reads, RA4 apart, and the two latches as destinations. -/
theorem portRead : Obligations.PortRead := by
  unfold Obligations.PortRead
  refine fun s => ⟨fun i hi => s.portReadB_getLsbD hi, fun i hi => ?pinsA, ?ra4,
    fun u v => ⟨?latA, rfl⟩⟩
  case pinsA =>
    have hne : i ≠ 4 := by omega
    simp [s.portReadA_getLsbD (show i < 5 by omega), hne]
  case ra4 =>
    rw [s.portReadA_getLsbD (by omega)]
    cases hlat : s.latA.getLsbD 4 <;> simp only [true_and, or_true, if_true]
  case latA => exact (BitVec.setWidth_eq_extractLsb' (by omega)).symm

/-! ### The edge on RB0/INT -/

/-- The selected edge is a change to the level that INTEDG names. -/
theorem selectedEdge_iff : ∀ old new intedg : Bool,
    (if intedg then !old && new else old && !new) = true ↔ old ≠ new ∧ intedg = new := by decide

/-- INTF is set exactly when RB0 changes to the level INTEDG names (R227). -/
theorem State.setPinsB_intcon (s : State) (v : Byte) :
    (s.setPinsB v).intcon
      = if s.pinB.getLsbD 0 ≠ v.getLsbD 0 ∧ s.optionReg.getLsbD 6 = v.getLsbD 0
        then s.intcon ||| 0x02 else s.intcon := by
  obtain ⟨-, hintf, -⟩ := setBit_intcon_flags s.intcon
  exact if_congr (selectedEdge_iff _ _ s.intedg) hintf rfl

theorem State.setPinsB_of_edge (s : State) {v : Byte} (hchange : s.pinB.getLsbD 0 ≠ v.getLsbD 0)
    (hedge : s.optionReg.getLsbD 6 = v.getLsbD 0) :
    s.setPinsB v = { s with pinB := v, intcon := s.intcon ||| 0x02 } := by
  calc s.setPinsB v = { s with pinB := v, intcon := (s.setPinsB v).intcon } := rfl
    _ = { s with pinB := v, intcon := s.intcon ||| 0x02 } := by
      rw [s.setPinsB_intcon v, if_pos ⟨hchange, hedge⟩]

theorem State.setPinsB_of_no_edge (s : State) {v : Byte}
    (h : ¬ (s.pinB.getLsbD 0 ≠ v.getLsbD 0 ∧ s.optionReg.getLsbD 6 = v.getLsbD 0)) :
    s.setPinsB v = { s with pinB := v } := by
  calc s.setPinsB v = { s with pinB := v, intcon := (s.setPinsB v).intcon } := rfl
    _ = { s with pinB := v } := by rw [s.setPinsB_intcon v, if_neg h]

/-- Settles O36: the rising and the falling edge are the two ways to reach the level INTEDG names. -/
theorem externalInterruptEdge : Obligations.ExternalInterruptEdge := by
  unfold Obligations.ExternalInterruptEdge
  refine fun s v => ⟨fun hedge hold hnew => ?rising, fun hedge hold hnew => ?falling, fun h => ?none⟩
  case rising => exact s.setPinsB_of_edge (by simp only [hold, hnew]; decide) (hedge.trans hnew.symm)
  case falling => exact s.setPinsB_of_edge (by simp only [hold, hnew]; decide) (hedge.trans hnew.symm)
  case none =>
    apply s.setPinsB_of_no_edge
    rintro ⟨hchange, hedge⟩
    obtain hsame | hother := h
    · exact hchange hsame
    · exact hchange (hother.symm.trans hedge)

/-! ### The change detector of RB7:RB4 -/

/-- No input pin of RB7:RB4 differs from its level at the last read of PORTB (R225). -/
def State.PinsAsRead (s : State) : Prop :=
  ∀ i : Nat, 4 ≤ i → i < 8 → s.trisB.getLsbD i = true →
    s.pinB.getLsbD i = s.rbLast.getLsbD (i - 4)

/-- The test of the model's change detector, pin by pin. -/
theorem State.mismatch_eq_zero_iff (s : State) :
    (s.pinB.extractLsb' 4 4 ^^^ s.rbLast) &&& s.trisB.extractLsb' 4 4 = 0 ↔ s.PinsAsRead := by
  have hbit (j : Nat) (hj : j < 4) :
      ((s.pinB.extractLsb' 4 4 ^^^ s.rbLast) &&& s.trisB.extractLsb' 4 4).getLsbD j = false
        ↔ (s.trisB.getLsbD (4 + j) = true → s.pinB.getLsbD (4 + j) = s.rbLast.getLsbD j) := by
    simp [hj]
    cases s.trisB.getLsbD (4 + j) <;> simp
  constructor
  · intro hzero i hlo hhi
    have := (hbit (i - 4) (by omega)).1 (by rw [hzero]; simp)
    rwa [Nat.add_sub_cancel' hlo] at this
  · intro hread
    apply BitVec.eq_of_getLsbD_eq
    intro j hj
    rw [(hbit j hj).2 (by simpa using hread (4 + j) (by omega) (by omega))]
    simp

theorem State.portChange_of_pinsAsRead {s : State} (h : s.PinsAsRead) : s.portChange = s :=
  if_pos (s.mismatch_eq_zero_iff.2 h)

/-- After the detector has looked, RBIF is set or there is no mismatch. -/
theorem State.portChange_rbif {s : State} (h : ¬ s.PinsAsRead) :
    s.portChange.intcon.getLsbD 0 = true := by
  unfold State.portChange
  rw [if_neg (mt s.mismatch_eq_zero_iff.1 h)]
  exact (setBit_getLsbD 0 true s.intcon 0 (by omega)).trans (if_pos rfl)

/-- The detector itself neither changes a pin nor reads PORTB, so a mismatch outlasts it. -/
theorem State.portChange_pinsAsRead (s : State) : s.portChange.PinsAsRead ↔ s.PinsAsRead := by
  obtain ⟨_, _, h⟩ := s.portChange_state
  rw [h]
  rfl

theorem boundaryEvents_of_env_nil {s : State} (h : s.env = []) : (boundaryEvents s).state = s := by
  unfold boundaryEvents
  rw [h, List.headD_nil, List.tail_nil, List.foldl_nil, ← h]

/-- A read of PORTB ends every mismatch (R225). -/
theorem State.afterRead_portB_pinsAsRead (s : State) : (s.afterRead .portB).PinsAsRead := by
  intro i hlo hhi _
  have hj : i - 4 < 4 := by omega
  simp [State.afterRead, hj, Nat.add_sub_cancel' hlo]

/-- Settles O37: what the detector leaves with a mismatch, without one, and after a read. -/
theorem portChangeFlag : Obligations.PortChangeFlag := by
  unfold Obligations.PortChangeFlag
  refine ⟨fun s i hlo hhi => ?mismatch, fun s henv hread => ?quiet, fun s => ⟨rfl, ?read⟩⟩
  case mismatch =>
    intro e htris hne
    have hmismatch : ¬ e.PinsAsRead := fun h => hne (h i hlo hhi htris)
    have he : e = (boundaryEvents s).state.portChange := environment_state s
    rw [he] at hmismatch ⊢
    exact State.portChange_rbif (mt (State.portChange_pinsAsRead _).2 hmismatch)
  case quiet =>
    rw [environment_state, boundaryEvents_of_env_nil henv, State.portChange_of_pinsAsRead hread]
  case read => exact State.portChange_of_pinsAsRead s.afterRead_portB_pinsAsRead

/-! ### The write inhibit of Timer0 -/

/-- A tick of either source is dropped while Timer0 is inhibited (R222). -/
theorem State.tick_of_inhibited {s : State} (h : s.t0Inhibit ≠ 0) : s.tick = s :=
  if_neg fun hval => h (Fin.ext hval)

theorem State.oneCycle_of_inhibit_two {s : State} (h : s.t0Inhibit = 2) :
    s.oneCycle = { s with t0Inhibit := 1 } := by
  unfold State.oneCycle
  rw [h]

theorem State.oneCycle_of_inhibit_one {s : State} (h : s.t0Inhibit = 1) :
    s.oneCycle = { s with t0Inhibit := 0 } := by
  unfold State.oneCycle
  rw [h]

/-- A cycle with the instruction clock as source and the prescaler on the watchdog counts (R221). -/
theorem State.oneCycle_of_direct {s : State} (h : s.t0Inhibit = 0) (hcs : s.t0cs = false)
    (hpsa : s.psa = true) : s.oneCycle = s.timerInc := by
  unfold State.oneCycle State.tick State.timerTick
  rw [h]
  simp [hcs, hpsa]

/-- Two cycles use the inhibit of a write up, and do nothing else. -/
theorem State.cycles_two_of_inhibit_two {s : State} (h : s.t0Inhibit = 2) :
    State.cycles 2 s = { s with t0Inhibit := 0 } := by
  change s.oneCycle.oneCycle = _
  rw [State.oneCycle_of_inhibit_two h, State.oneCycle_of_inhibit_one rfl]

theorem State.cycles_add (m n : Nat) (s : State) :
    State.cycles (m + n) s = State.cycles n (State.cycles m s) := by
  induction m generalizing s with
  | zero => rw [Nat.zero_add]; rfl
  | succ m ih => rw [Nat.succ_add, State.cycles, State.cycles, ih]

/-- A write to TMR0: the value, the prescaler when Timer0 owns it, and the inhibit (R222). -/
theorem State.storeReg_tmr0_eq (s : State) (u : FlagUpdate) (v : Byte) :
    s.storeReg u v .tmr0 = { s with
      tmr0 := v, prescaler := if s.psa = true then s.prescaler else 0, t0Inhibit := 2 } := rfl

/-- Settles O42: the write, the two inhibited cycles, and the third, which counts. -/
theorem timerWriteInhibits : Obligations.TimerWriteInhibits := by
  unfold Obligations.TimerWriteInhibits
  intro s u v t
  have ht : t.t0Inhibit = 2 := rfl
  refine ⟨rfl, ht, rfl, fun hpsa => ?cleared, fun hpsa => ?kept, rfl, ?dropped, ?droppedNext,
    State.cycles_two_of_inhibit_two ht, fun hcs hpsa => ?counts⟩
  case cleared => simp [t, State.storeReg_tmr0_eq, hpsa]
  case kept => simp [t, State.storeReg_tmr0_eq, hpsa]
  case dropped => exact State.tick_of_inhibited (by rw [ht]; decide)
  case droppedNext =>
    rw [State.oneCycle_of_inhibit_two ht]
    exact State.tick_of_inhibited (by simp)
  case counts =>
    rw [State.cycles_add 2 1 t, State.cycles_two_of_inhibit_two ht]
    exact congrArg State.tmr0
      (State.oneCycle_of_direct (s := { t with t0Inhibit := 0 }) rfl hcs hpsa)

/-! ### Interrupt entry -/

/-- An awake core without a reset request takes a pending interrupt or runs on (R214, R232). -/
theorem boundary_of_awake {s : State} (hr : (environment s).reset = none)
    (ha : (environment s).state.asleep = false) :
    boundary s = if (environment s).state.gie && (environment s).state.pending
      then .enter (environment s).state else .run (environment s).state := by
  unfold boundary boundaryOf
  simp [hr, ha]

/-- The entry after its push: GIE cleared, the vector, and two cycles of Timer0 (R213). -/
theorem step_of_enter_push_ok {s e t : State} (hb : boundary s = .enter e)
    (hp : e.push e.pc e.pc = .ok t) :
    step s = .next (State.cycles 2 { t with
      intcon := t.intcon &&& 0x7F, pc := 0x0004, cyc := 2 }) := by
  obtain ⟨-, hgie⟩ := setBit_intcon_gie t.intcon
  simp only [step, hb, State.interruptEntry, hp, hgie]
  rfl

theorem step_of_enter_push_error {s e : State} {f : Fault} (hb : boundary s = .enter e)
    (hp : e.push e.pc e.pc = .error f) : step s = .fault f := by
  simp only [step, hb, State.interruptEntry, hp]

/-- Settles O45: each outcome of the entry is the outcome of its push (R29). -/
theorem interruptEntryStep : Obligations.InterruptEntryStep := by
  unfold Obligations.InterruptEntryStep
  intro s o e hr ha
  refine ⟨fun hno => ?runs, fun hgie hpending => ?enters⟩
  case runs =>
    have hnot : (e.gie && e.pending) = false := by simpa only [Bool.and_eq_false_iff] using hno
    rw [boundary_of_awake hr ha, hnot]
    rfl
  case enters =>
    have hb : boundary s = .enter e := by
      rw [boundary_of_awake hr ha, hgie, hpending]
      rfl
    refine ⟨fun hp hroom => ?pushed, fun hp hfull => ?overflow, fun hp => ?circular⟩
    case pushed => exact step_of_enter_push_ok hb (State.push_of_lt hp e.pc e.pc hroom)
    case overflow => exact step_of_enter_push_error hb (State.push_of_full hp e.pc e.pc hfull)
    case circular => exact step_of_enter_push_ok hb (State.push_circular hp e.pc e.pc)

end Sys2Proof.Machine
end

section
/-! PROOFS. Decoding and encoding: the canonical word of every instruction decodes to it (R119), a decoded
word is its instruction's canonical word but for the `x` bits (R105), and the opcode table reads every
word as the opcode map does (R109 to R115). -/

namespace Sys2Proof

open Sys2Proof.Machine (xBits)

/-! ### Decoding the canonical word -/

/-- The canonical word of every instruction belongs to the instruction's row (R114, R119). -/
theorem carriesItsRow (i : Instr) : Laws.CarriesItsRow.Statement i := by
  cases i with
  | addlw k => exact Laws.CarriesItsRow.addlw k
  | addwf d f => exact Laws.CarriesItsRow.addwf d f
  | andlw k => exact Laws.CarriesItsRow.andlw k
  | andwf d f => exact Laws.CarriesItsRow.andwf d f
  | bcf b f => exact Laws.CarriesItsRow.bcf b f
  | bsf b f => exact Laws.CarriesItsRow.bsf b f
  | btfsc b f => exact Laws.CarriesItsRow.btfsc b f
  | btfss b f => exact Laws.CarriesItsRow.btfss b f
  | call k => exact Laws.CarriesItsRow.call k
  | clrf f => exact Laws.CarriesItsRow.clrf f
  | clrw => exact Laws.CarriesItsRow.clrw
  | clrwdt => exact Laws.CarriesItsRow.clrwdt
  | comf d f => exact Laws.CarriesItsRow.comf d f
  | decf d f => exact Laws.CarriesItsRow.decf d f
  | decfsz d f => exact Laws.CarriesItsRow.decfsz d f
  | goto k => exact Laws.CarriesItsRow.goto k
  | incf d f => exact Laws.CarriesItsRow.incf d f
  | incfsz d f => exact Laws.CarriesItsRow.incfsz d f
  | iorlw k => exact Laws.CarriesItsRow.iorlw k
  | iorwf d f => exact Laws.CarriesItsRow.iorwf d f
  | movlw k => exact Laws.CarriesItsRow.movlw k
  | movf d f => exact Laws.CarriesItsRow.movf d f
  | movwf f => exact Laws.CarriesItsRow.movwf f
  | nop => exact Laws.CarriesItsRow.nop
  | retfie => exact Laws.CarriesItsRow.retfie
  | retlw k => exact Laws.CarriesItsRow.retlw k
  | ret => exact Laws.CarriesItsRow.ret
  | rlf d f => exact Laws.CarriesItsRow.rlf d f
  | rrf d f => exact Laws.CarriesItsRow.rrf d f
  | sleep => exact Laws.CarriesItsRow.sleep
  | sublw k => exact Laws.CarriesItsRow.sublw k
  | subwf d f => exact Laws.CarriesItsRow.subwf d f
  | swapf d f => exact Laws.CarriesItsRow.swapf d f
  | xorlw k => exact Laws.CarriesItsRow.xorlw k
  | xorwf d f => exact Laws.CarriesItsRow.xorwf d f

/-- Settles O55: the search finds the row the canonical word carries. -/
theorem decodeOfEncode : Obligations.DecodeOfEncode := by
  unfold Obligations.DecodeOfEncode
  intro i
  obtain ⟨r, hr, hmatch, hbuild⟩ := carriesItsRow i
  rw [decode_of_row hr hmatch, hbuild]

/-- Settles O58: each word is the canonical word of its instruction. -/
theorem decodeExamples : Obligations.DecodeExamples := by
  unfold Obligations.DecodeExamples
  exact ⟨decodeOfEncode (.addwf .f 0x0C), decodeOfEncode (.clrf 0x0D), decodeOfEncode (.bsf 5 0x03),
    decodeOfEncode (.movlw 0x5A), decodeOfEncode (.goto 0x007), decodeOfEncode (.call 0x005),
    decodeOfEncode .retfie, decodeOfEncode .sleep⟩

/-! ### Encoding a decoded word -/

/-- Clearing the bits `x` of a word keeps the word exactly when it has none of them. -/
theorem and_not_eq_self_iff {n : Nat} (w x : BitVec n) : w &&& ~~~x = w ↔ w &&& x = 0#n := by
  constructor
  · intro h
    rw [← h]
    ext i hi
    simp
  · intro h
    ext i hi
    have hbit : (w &&& x)[i] = (0#n)[i] := by rw [h]
    revert hbit
    simp only [BitVec.getElem_and, BitVec.getElem_not, BitVec.getElem_zero]
    cases w[i] <;> simp

/-- A word with the match bits of a row, its `x` bits cleared, is the row's opcode bits over the word's
low `n` bits, when the row fixes or ignores everything above. -/
theorem and_not_xBits_eq_append {N m n : Nat} (hN : m + n = N) {w mask pattern x : BitVec N}
    {op : BitVec m} (hw : w &&& mask = pattern) (hop : (op ++ 0#n).cast hN = pattern)
    (hx : ~~~x = mask ||| (0#m ++ BitVec.allOnes n).cast hN) :
    (op ++ w.extractLsb' 0 n).cast hN = w &&& ~~~x := by
  subst hN
  rw [BitVec.cast_eq] at *
  have hlow : w &&& (0#m ++ BitVec.allOnes n) = 0#m ++ w.extractLsb' 0 n := by
    apply BitVec.eq_of_getLsbD_eq
    intro i _
    simp only [BitVec.getLsbD_and, BitVec.getLsbD_append, BitVec.getLsbD_extractLsb']
    by_cases h : i < n <;> simp [h]
  calc op ++ w.extractLsb' 0 n = (op ++ 0#n) ||| (0#m ++ w.extractLsb' 0 n) := by
        rw [BitVec.or_append]; simp
    _ = w &&& ~~~x := by rw [hop, ← hw, ← hlow, hx, BitVec.and_or_distrib_left]

/-- A word of the row is its instruction's canonical word, but for the `x` bits (R105, R119). -/
def OpRow.EncodesBack (r : OpRow) : Prop :=
  ∀ w : InstrWord, w &&& r.mask = r.pattern → encode (r.build w) = w &&& ~~~xBits (r.build w)

/-- The fields of format B side by side are the low eight bits (R101). -/
theorem fieldD_append_fieldF (w : InstrWord) : (fieldD w).bit ++ fieldF w = w.extractLsb' 0 8 := by
  have hbit : (fieldD w).bit = w.extractLsb' 7 1 := by
    have hd : (fieldD w).bit = BitVec.ofBool (w.getLsbD 7) := by
      unfold fieldD
      cases w.getLsbD 7 <;> rfl
    rw [hd]
    apply BitVec.eq_of_getLsbD_eq
    intro i hi
    simp [show i = 0 by omega]
  rw [hbit]
  exact BitVec.extractLsb'_append_extractLsb'_eq_extractLsb' rfl

/-- The fields of format T side by side are the low ten bits (R103). -/
theorem fieldB_append_fieldF (w : InstrWord) : fieldB w ++ fieldF w = w.extractLsb' 0 10 :=
  BitVec.extractLsb'_append_extractLsb'_eq_extractLsb' rfl

/-- A row whose word is its opcode bits, then fields that fill the low `n` bits, encodes back. -/
theorem encodesBack_of_append {m n : Nat} (h14 : m + n = 14) {r : OpRow} {x : InstrWord}
    {op : BitVec m} (hop : (op ++ 0#n).cast h14 = r.pattern)
    (hx : ~~~x = r.mask ||| (0#m ++ BitVec.allOnes n).cast h14)
    (hbits : ∀ w, xBits (r.build w) = x)
    (henc : ∀ w, encode (r.build w) = (op ++ w.extractLsb' 0 n).cast h14) : r.EncodesBack := by
  intro w hw
  rw [henc, hbits]
  exact and_not_xBits_eq_append h14 hw hop hx

/-- A row of format B: every bit is fixed or a field (R101). -/
theorem encodesBack_B {name : String} {pattern : InstrWord} {mk : Dest → FileField → Instr}
    {op : BitVec 6} (hop : op ++ 0#8 = pattern) (henc : ∀ d f, encode (mk d f) = op ++ d.bit ++ f)
    (hx : ∀ d f, xBits (mk d f) = 0) :
    OpRow.EncodesBack ⟨name, pattern, 0x3F00, fun w => mk (fieldD w) (fieldF w)⟩ := by
  refine encodesBack_of_append (m := 6) (n := 8) rfl hop
    (by decide : ~~~(0 : InstrWord) = 0x3F00 ||| (0#6 ++ BitVec.allOnes 8)) (fun _ => hx _ _) ?_
  intro w
  rw [henc, ← fieldD_append_fieldF]
  exact BitVec.append_assoc

/-- A row of format T (R103). -/
theorem encodesBack_T {name : String} {pattern : InstrWord} {mk : BitField → FileField → Instr}
    {op : BitVec 4} (hop : op ++ 0#10 = pattern) (henc : ∀ b f, encode (mk b f) = op ++ b ++ f)
    (hx : ∀ b f, xBits (mk b f) = 0) :
    OpRow.EncodesBack ⟨name, pattern, 0x3C00, fun w => mk (fieldB w) (fieldF w)⟩ := by
  refine encodesBack_of_append (m := 4) (n := 10) rfl hop
    (by decide : ~~~(0 : InstrWord) = 0x3C00 ||| (0#4 ++ BitVec.allOnes 10)) (fun _ => hx _ _) ?_
  intro w
  rw [henc, ← fieldB_append_fieldF]
  exact BitVec.append_assoc

/-- A row of format F (R102). -/
theorem encodesBack_F {name : String} {pattern : InstrWord} {mk : FileField → Instr}
    {op : BitVec 7} (hop : op ++ 0#7 = pattern) (henc : ∀ f, encode (mk f) = op ++ f)
    (hx : ∀ f, xBits (mk f) = 0) :
    OpRow.EncodesBack ⟨name, pattern, 0x3F80, fun w => mk (fieldF w)⟩ :=
  encodesBack_of_append (m := 7) (n := 7) rfl hop
    (by decide : ~~~(0 : InstrWord) = 0x3F80 ||| (0#7 ++ BitVec.allOnes 7)) (fun _ => hx _) fun _ => henc _

/-- A row of format L, whose `x` bits stand between the bits it fixes and the literal (R104, R105). -/
theorem encodesBack_L {name : String} {pattern mask x : InstrWord} {mk : Byte → Instr}
    {op : BitVec 6} (hop : op ++ 0#8 = pattern) (henc : ∀ k, encode (mk k) = op ++ k)
    (hbits : ∀ k, xBits (mk k) = x) (hx : ~~~x = mask ||| (0#6 ++ BitVec.allOnes 8)) :
    OpRow.EncodesBack ⟨name, pattern, mask, fun w => mk (fieldK8 w)⟩ :=
  encodesBack_of_append (m := 6) (n := 8) rfl hop hx (fun _ => hbits _) fun _ => henc _

/-- A row of format J (R106). -/
theorem encodesBack_J {name : String} {pattern : InstrWord} {mk : BitVec 11 → Instr}
    {op : BitVec 3} (hop : op ++ 0#11 = pattern) (henc : ∀ k, encode (mk k) = op ++ k)
    (hx : ∀ k, xBits (mk k) = 0) :
    OpRow.EncodesBack ⟨name, pattern, 0x3800, fun w => mk (fieldK11 w)⟩ :=
  encodesBack_of_append (m := 3) (n := 11) rfl hop
    (by decide : ~~~(0 : InstrWord) = 0x3800 ||| (0#3 ++ BitVec.allOnes 11)) (fun _ => hx _) fun _ => henc _

/-- A row of format N, which fixes every bit but its `x` bits (R105, R107). -/
theorem encodesBack_N {name : String} {pattern mask : InstrWord} {i : Instr}
    (henc : encode i = pattern) (hx : ~~~xBits i = mask) :
    OpRow.EncodesBack ⟨name, pattern, mask, fun _ => i⟩ := by
  intro w hw
  exact henc.trans (hw.symm.trans (by rw [hx]))

theorem opRowsA_encodesBack : ∀ r ∈ opRowsA, r.EncodesBack := by
  simp only [opRowsA, List.forall_mem_cons, List.not_mem_nil, false_imp_iff, implies_true, and_true]
  refine ⟨?addlw, ?addwf, ?andlw, ?andwf, ?bcf, ?bsf, ?btfsc, ?btfss, ?call, ?clrf, ?clrw, ?clrwdt,
    ?comf, ?decf, ?decfsz, ?goto, ?incf, ?incfsz⟩
  case addlw => exact encodesBack_L rfl (fun _ => rfl) (fun _ => rfl) (by decide)
  case andlw => exact encodesBack_L rfl (fun _ => rfl) (fun _ => rfl) (by decide)
  case bcf => exact encodesBack_T rfl (fun _ _ => rfl) fun _ _ => rfl
  case bsf => exact encodesBack_T rfl (fun _ _ => rfl) fun _ _ => rfl
  case btfsc => exact encodesBack_T rfl (fun _ _ => rfl) fun _ _ => rfl
  case btfss => exact encodesBack_T rfl (fun _ _ => rfl) fun _ _ => rfl
  case call => exact encodesBack_J rfl (fun _ => rfl) fun _ => rfl
  case goto => exact encodesBack_J rfl (fun _ => rfl) fun _ => rfl
  case clrf => exact encodesBack_F rfl (fun _ => rfl) fun _ => rfl
  case clrw => exact encodesBack_N rfl (by decide)
  case clrwdt => exact encodesBack_N rfl (by decide)
  all_goals exact encodesBack_B rfl (fun _ _ => rfl) fun _ _ => rfl

theorem opRowsB_encodesBack : ∀ r ∈ opRowsB, r.EncodesBack := by
  simp only [opRowsB, List.forall_mem_cons, List.not_mem_nil, false_imp_iff, implies_true, and_true]
  refine ⟨?iorlw, ?iorwf, ?movlw, ?movf, ?movwf, ?nop, ?retfie, ?retlw, ?ret, ?rlf, ?rrf, ?sleep,
    ?sublw, ?subwf, ?swapf, ?xorlw, ?xorwf⟩
  case iorlw => exact encodesBack_L rfl (fun _ => rfl) (fun _ => rfl) (by decide)
  case movlw => exact encodesBack_L rfl (fun _ => rfl) (fun _ => rfl) (by decide)
  case retlw => exact encodesBack_L rfl (fun _ => rfl) (fun _ => rfl) (by decide)
  case sublw => exact encodesBack_L rfl (fun _ => rfl) (fun _ => rfl) (by decide)
  case xorlw => exact encodesBack_L rfl (fun _ => rfl) (fun _ => rfl) (by decide)
  case movwf => exact encodesBack_F rfl (fun _ => rfl) fun _ => rfl
  case nop => exact encodesBack_N rfl (by decide)
  case retfie => exact encodesBack_N rfl (by decide)
  case ret => exact encodesBack_N rfl (by decide)
  case sleep => exact encodesBack_N rfl (by decide)
  all_goals exact encodesBack_B rfl (fun _ _ => rfl) fun _ _ => rfl

/-- Settles O56: the word's row encodes back, by the row's format. -/
theorem encodeOfDecode : Obligations.EncodeOfDecode := by
  unfold Obligations.EncodeOfDecode
  intro w i hi
  obtain ⟨r, hr, hmatch, rfl⟩ := row_of_decode hi
  have hback : r.EncodesBack := (List.mem_append.1 hr).elim (opRowsA_encodesBack r) (opRowsB_encodesBack r)
  have henc := hback w hmatch
  exact ⟨henc, by rw [henc]; exact and_not_eq_self_iff w _⟩

/-! ### The opcode table and the opcode map -/

/-- The ranges of rule R114 that hold no instruction. -/
abbrev Unassigned (w : InstrWord) : Prop :=
  (0x0001 ≤ w.toNat ∧ w.toNat ≤ 0x0007) ∨ (0x000A ≤ w.toNat ∧ w.toNat ≤ 0x001F)
  ∨ (0x0021 ≤ w.toNat ∧ w.toNat ≤ 0x003F) ∨ (0x0041 ≤ w.toNat ∧ w.toNat ≤ 0x005F)
  ∨ w.toNat = 0x0061 ∨ w.toNat = 0x0062 ∨ (0x0065 ≤ w.toNat ∧ w.toNat ≤ 0x007F)
  ∨ (0x3B00 ≤ w.toNat ∧ w.toNat ≤ 0x3BFF)

/-- A word of the table as its high seven bits and its low seven, the bits of an `f` field. -/
theorem highBits_append_fieldF (w : InstrWord) : w.extractLsb' 7 7 ++ fieldF w = w := by
  have h : w.extractLsb' 7 7 ++ fieldF w = w.extractLsb' 0 14 :=
    BitVec.extractLsb'_append_extractLsb'_eq_extractLsb' rfl
  rw [h, BitVec.extractLsb'_eq_self]

theorem toNat_highBits_append (h l : BitVec 7) : (h ++ l : InstrWord).toNat = h.toNat * 128 + l.toNat := by
  rw [BitVec.toNat_append, ← Nat.shiftLeft_add_eq_or_of_lt l.isLt, Nat.shiftLeft_eq]

/-- The low seven bits take no part in the match of a row that fixes none of them. -/
theorem append_and_mask (h l : BitVec 7) {mask : InstrWord} (hm : mask &&& 0x007F = 0) :
    (h ++ l) &&& mask = (h ++ 0#7) &&& mask := by
  have hlow : ∀ i < 7, mask.getLsbD i = false := by
    intro i hi
    have hbit := congrArg (fun v : InstrWord => v.getLsbD i) hm
    interval_cases i <;> simpa using hbit
  apply BitVec.eq_of_getLsbD_eq
  intro i _
  simp only [BitVec.getLsbD_and, BitVec.getLsbD_append]
  by_cases hi : i < 7
  · simp [hlow i hi]
  · simp [hi]

/-- With the high seven bits 0 the low ones tell the instruction, or that there is none (R111). -/
theorem lowWord_unassigned_or_row : ∀ l : BitVec 7,
    Unassigned (0#7 ++ l) ∨ ∃ r ∈ opRows, (0#7 ++ l) &&& r.mask = r.pattern := by decide

/-- Any other high seven bits name a row that fixes none of the low ones, or are those of 3Bxxh
(R110, R112, R113). -/
theorem highBits_unassigned_or_row : ∀ h : BitVec 7,
    h = 0 ∨ (h = 0x76 ∨ h = 0x77)
      ∨ ∃ r ∈ opRows, r.mask &&& 0x007F = 0 ∧ (h ++ 0#7) &&& r.mask = r.pattern := by decide

theorem unassigned_of_3B {h : BitVec 7} (hh : h = 0x76 ∨ h = 0x77) (l : BitVec 7) :
    Unassigned (h ++ l) := by
  have hl := l.isLt
  have hnat : h.toNat = 0x76 ∨ h.toNat = 0x77 := hh.imp (congrArg BitVec.toNat) (congrArg BitVec.toNat)
  unfold Unassigned
  rw [toNat_highBits_append]
  omega

theorem unassigned_or_row (w : InstrWord) :
    Unassigned w ∨ ∃ r ∈ opRows, w &&& r.mask = r.pattern := by
  rw [← highBits_append_fieldF w]
  generalize w.extractLsb' 7 7 = h
  generalize fieldF w = l
  obtain rfl | h3B | ⟨r, hr, hm, hrow⟩ := highBits_unassigned_or_row h
  · exact lowWord_unassigned_or_row l
  · exact .inl (unassigned_of_3B h3B l)
  · exact .inr ⟨r, hr, (append_and_mask h l hm).trans hrow⟩

/-- The words 3Bxxh, read as a row, differ from every row of the table in a bit both fix. -/
theorem opRows_differ_3B : ∀ r ∈ opRows, r.mask &&& 0x3F00 &&& (r.pattern ^^^ 0x3B00) ≠ 0 := by decide

theorem lowWord_no_row : ∀ l : BitVec 7, Unassigned (0#7 ++ l) →
    ∀ r ∈ opRows, (0#7 ++ l) &&& r.mask ≠ r.pattern := by decide

theorem toNat_highBits (w : InstrWord) : (w.extractLsb' 7 7).toNat = w.toNat / 128 := by
  have hw := w.isLt
  rw [BitVec.extractLsb'_toNat, Nat.shiftRight_eq_div_pow]
  omega

/-- An unassigned word has its high seven bits 0, or the bits 13:8 of 3Bxxh. -/
theorem highBits_of_unassigned {w : InstrWord} (h : Unassigned w) :
    w.extractLsb' 7 7 = 0#7 ∨ w &&& 0x3F00 = 0x3B00 := by
  have h3B : ∀ h : BitVec 7, h = 0x76 ∨ h = 0x77 → (h ++ 0#7) &&& 0x3F00#14 = 0x3B00#14 := by decide
  have hnat := toNat_highBits w
  have hcases : w.extractLsb' 7 7 = 0#7 ∨ w.extractLsb' 7 7 = 0x76 ∨ w.extractLsb' 7 7 = 0x77 := by
    unfold Unassigned at h
    bv_omega
  refine hcases.imp id fun hhigh => ?_
  rw [← highBits_append_fieldF w, append_and_mask _ _ (by decide)]
  exact h3B _ hhigh

theorem no_row_of_unassigned {w : InstrWord} (h : Unassigned w) :
    ∀ r ∈ opRows, w &&& r.mask ≠ r.pattern := by
  intro r hr hrow
  obtain h0 | h3B := highBits_of_unassigned h
  · rw [← highBits_append_fieldF w, h0] at h hrow
    exact lowWord_no_row _ h r hr hrow
  · have hmatch : (OpRow.mk "" 0x3B00 0x3F00 r.build).matches w = true := by
      simpa [OpRow.matches] using h3B
    exact opRows_differ_3B r hr (OpRow.matches_agree (by simp [OpRow.matches, hrow]) hmatch)

/-- The table leaves exactly the listed words without an instruction (R114, R115). -/
theorem decode_error_iff (w : InstrWord) : decode w = .error (.illegal w) ↔ Unassigned w := by
  constructor
  · intro h
    obtain ⟨-, hnone⟩ := no_row_of_decode_error h
    exact (unassigned_or_row w).resolve_right fun ⟨r, hr, hrow⟩ => hnone r hr hrow
  · intro h
    cases hd : decode w with
    | error e => rw [(no_row_of_decode_error hd).1]
    | ok i =>
      obtain ⟨r, hr, hrow, -⟩ := row_of_decode hd
      exact absurd hrow (no_row_of_unassigned h r hr)

/-- The opcode map reads the words of a row as the row does. -/
def OpRow.OnMap (r : OpRow) : Prop :=
  ∀ w : InstrWord, w &&& r.mask = r.pattern → decodeByMap w = some (r.build w)

/-- A field of the opcode that a row fixes has the row's value in every word of the row. -/
theorem extract_of_row {w mask pattern : InstrWord} (hw : w &&& mask = pattern) (start len : Nat)
    (hm : mask.extractLsb' start len = BitVec.allOnes len) :
    w.extractLsb' start len = pattern.extractLsb' start len := by
  rw [← hw, BitVec.extractLsb'_and, hm, BitVec.and_allOnes]

/-- So has a single bit. -/
theorem bit_of_row {w mask pattern : InstrWord} (hw : w &&& mask = pattern) (i : Nat) (hi : i < 14)
    (hm : mask[i] = true) : w[i] = pattern[i] := by
  simp [← hw, hm]

/-- A row that fixes bits 13:12 and 11:8 is on the map when its group has it there (R110, R113). -/
theorem onMap_of_nibble {name : String} {pattern mask : InstrWord} {build : InstrWord → Instr}
    (hm : mask.extractLsb' 12 2 = BitVec.allOnes 2 ∧ mask.extractLsb' 8 4 = BitVec.allOnes 4)
    (h : ∀ w, w.extractLsb' 12 2 = pattern.extractLsb' 12 2 →
      w.extractLsb' 8 4 = pattern.extractLsb' 8 4 → decodeByMap w = some (build w)) :
    OpRow.OnMap ⟨name, pattern, mask, build⟩ :=
  fun w hw => h w (extract_of_row hw 12 2 hm.1) (extract_of_row hw 8 4 hm.2)

/-- The nibble 11:8 by its upper bits. -/
theorem toNat_nibble (w : InstrWord) :
    (w.extractLsb' 8 4).toNat / 2 = (w.extractLsb' 9 3).toNat
      ∧ (w.extractLsb' 8 4).toNat / 4 = (w.extractLsb' 10 2).toNat := by
  simp only [BitVec.extractLsb'_toNat, Nat.shiftRight_eq_div_pow]
  omega

/-- A row of format T is in group 01, where bits 11:10 tell the four apart (R112). -/
theorem onMap_T {name : String} {pattern : InstrWord} {build : InstrWord → Instr}
    (h : ∀ w, w.extractLsb' 12 2 = pattern.extractLsb' 12 2 →
      w.extractLsb' 10 2 = pattern.extractLsb' 10 2 → decodeByMap w = some (build w)) :
    OpRow.OnMap ⟨name, pattern, 0x3C00, build⟩ :=
  fun w (hw : w &&& 0x3C00 = pattern) =>
    h w (extract_of_row hw 12 2 (by decide)) (extract_of_row hw 10 2 (by decide))

/-- A row of format J is in group 10, where bit 11 tells the two apart (R112). -/
theorem onMap_J {name : String} {pattern : InstrWord} {build : InstrWord → Instr}
    (h : ∀ w, w.extractLsb' 12 2 = pattern.extractLsb' 12 2 →
      w[11] = pattern[11] → decodeByMap w = some (build w)) :
    OpRow.OnMap ⟨name, pattern, 0x3800, build⟩ :=
  fun w (hw : w &&& 0x3800 = pattern) =>
    h w (extract_of_row hw 12 2 (by decide)) (bit_of_row hw 11 (by decide) (by decide))

/-- A row of format F also fixes bit 7 (R110). -/
theorem onMap_F {name : String} {pattern : InstrWord} {build : InstrWord → Instr}
    (h : ∀ w, w.extractLsb' 12 2 = pattern.extractLsb' 12 2 →
      w.extractLsb' 8 4 = pattern.extractLsb' 8 4 → w[7] = pattern[7] →
      decodeByMap w = some (build w)) :
    OpRow.OnMap ⟨name, pattern, 0x3F80, build⟩ :=
  fun w (hw : w &&& 0x3F80 = pattern) =>
    h w (extract_of_row hw 12 2 (by decide)) (extract_of_row hw 8 4 (by decide))
      (bit_of_row hw 7 (by decide) (by decide))

/-- ADDLW and SUBLW take two nibbles of group 11 (R113). -/
theorem onMap_twoNibbles (n : Nat) {name : String} {pattern : InstrWord} {build : InstrWord → Instr}
    (hp : pattern.extractLsb' 12 2 = 3 ∧ (pattern.extractLsb' 9 3).toNat = n)
    (h : ∀ w, (w.extractLsb' 8 4).toNat = 2 * n ∨ (w.extractLsb' 8 4).toNat = 2 * n + 1 →
      decodeGroup11 w = some (build w)) : OpRow.OnMap ⟨name, pattern, 0x3E00, build⟩ := by
  intro w (hw : w &&& 0x3E00 = pattern)
  have hgroup := (extract_of_row hw 12 2 (by decide)).trans hp.1
  have hthree := (congrArg BitVec.toNat (extract_of_row hw 9 3 (by decide))).trans hp.2
  have hnibble := (toNat_nibble w).1
  rw [decodeByMap, hgroup]
  exact h w (by omega)

/-- MOVLW and RETLW take four nibbles of group 11 (R113). -/
theorem onMap_fourNibbles (n : Nat) {name : String} {pattern : InstrWord} {build : InstrWord → Instr}
    (hp : pattern.extractLsb' 12 2 = 3 ∧ (pattern.extractLsb' 10 2).toNat = n)
    (h : ∀ w, 4 * n ≤ (w.extractLsb' 8 4).toNat → (w.extractLsb' 8 4).toNat < 4 * n + 4 →
      decodeGroup11 w = some (build w)) : OpRow.OnMap ⟨name, pattern, 0x3C00, build⟩ := by
  intro w (hw : w &&& 0x3C00 = pattern)
  have hgroup := (extract_of_row hw 12 2 (by decide)).trans hp.1
  have htwo := (congrArg BitVec.toNat (extract_of_row hw 10 2 (by decide))).trans hp.2
  have hnibble := (toNat_nibble w).2
  rw [decodeByMap, hgroup]
  exact h w (by omega) (by omega)

/-- The words without `x` bits of format N are one word each. -/
theorem onMap_word {name : String} {pattern : InstrWord} {i : Instr}
    (h : decodeByMap pattern = some i) : OpRow.OnMap ⟨name, pattern, 0x3FFF, fun _ => i⟩ := by
  intro w hw
  have hall : w &&& 0x3FFF = w := BitVec.and_allOnes
  exact (congrArg decodeByMap (hall.symm.trans hw)).trans h

/-- The four words of NOP (R105, R111). -/
theorem nop_onMap : OpRow.OnMap ⟨"NOP", 0x0000, 0x3F9F, fun _ => .nop⟩ := by
  have hlow : ∀ l : BitVec 7, (0#7 ++ l) &&& 0x3F9F#14 = 0 → decodeByMap (0#7 ++ l) = some .nop := by
    decide
  intro w hw
  have hhigh : w.extractLsb' 7 7 = 0#7 := extract_of_row hw 7 7 (by decide)
  rw [← highBits_append_fieldF w, hhigh] at hw ⊢
  exact hlow _ hw

theorem opRowsA_onMap : ∀ r ∈ opRowsA, r.OnMap := by
  simp only [opRowsA, List.forall_mem_cons, List.not_mem_nil, false_imp_iff, implies_true, and_true]
  refine ⟨?addlw, ?addwf, ?andlw, ?andwf, ?bcf, ?bsf, ?btfsc, ?btfss, ?call, ?clrf, ?clrw,
    onMap_word (by decide), ?comf, ?decf, ?decfsz, ?goto, ?incf, ?incfsz⟩
  case addlw =>
    refine onMap_twoNibbles 7 ⟨rfl, rfl⟩ fun w h => ?_
    obtain h | h := h <;> simp [decodeGroup11, h]
  case bcf => exact onMap_T fun w h12 h10 => by simp [decodeByMap, decodeGroup01, h12, h10]
  case bsf => exact onMap_T fun w h12 h10 => by simp [decodeByMap, decodeGroup01, h12, h10]
  case btfsc => exact onMap_T fun w h12 h10 => by simp [decodeByMap, decodeGroup01, h12, h10]
  case btfss => exact onMap_T fun w h12 h10 => by simp [decodeByMap, decodeGroup01, h12, h10]
  case call =>
    exact onMap_J fun w h12 h11 => by simp [decodeByMap, decodeGroup10, h12, h11]
  case goto =>
    exact onMap_J fun w h12 h11 => by simp [decodeByMap, decodeGroup10, h12, h11]
  case clrf =>
    exact onMap_F fun w h12 h8 h7 => by simp [decodeByMap, decodeGroup00, h12, h8, h7]
  case clrw =>
    exact onMap_F fun w h12 h8 h7 => by simp [decodeByMap, decodeGroup00, h12, h8, h7]
  case andlw =>
    exact onMap_of_nibble (by decide) fun w h12 h8 => by simp [decodeByMap, decodeGroup11, h12, h8]
  all_goals
    exact onMap_of_nibble (by decide) fun w h12 h8 => by simp [decodeByMap, decodeGroup00, h12, h8]

theorem opRowsB_onMap : ∀ r ∈ opRowsB, r.OnMap := by
  simp only [opRowsB, List.forall_mem_cons, List.not_mem_nil, false_imp_iff, implies_true, and_true]
  refine ⟨?iorlw, ?iorwf, ?movlw, ?movf, ?movwf, nop_onMap, onMap_word (by decide), ?retlw,
    onMap_word (by decide), ?rlf, ?rrf, onMap_word (by decide), ?sublw, ?subwf, ?swapf, ?xorlw, ?xorwf⟩
  case sublw =>
    refine onMap_twoNibbles 6 ⟨rfl, rfl⟩ fun w h => ?_
    obtain h | h := h <;> simp [decodeGroup11, h]
  case movlw =>
    refine onMap_fourNibbles 0 ⟨rfl, rfl⟩ fun w hlo hhi => ?_
    unfold decodeGroup11
    interval_cases (w.extractLsb' 8 4).toNat <;> rfl
  case retlw =>
    refine onMap_fourNibbles 1 ⟨rfl, rfl⟩ fun w hlo hhi => ?_
    unfold decodeGroup11
    interval_cases (w.extractLsb' 8 4).toNat <;> rfl
  case movwf =>
    exact onMap_F fun w h12 h8 h7 => by simp [decodeByMap, decodeGroup00, h12, h8, h7]
  case iorlw =>
    exact onMap_of_nibble (by decide) fun w h12 h8 => by simp [decodeByMap, decodeGroup11, h12, h8]
  case xorlw =>
    exact onMap_of_nibble (by decide) fun w h12 h8 => by simp [decodeByMap, decodeGroup11, h12, h8]
  all_goals
    exact onMap_of_nibble (by decide) fun w h12 h8 => by simp [decodeByMap, decodeGroup00, h12, h8]

/-- The opcode map leaves the unassigned words without an instruction too. -/
theorem decodeByMap_of_unassigned {w : InstrWord} (h : Unassigned w) : decodeByMap w = none := by
  have hlow : ∀ l : BitVec 7, Unassigned (0#7 ++ l) → decodeByMap (0#7 ++ l) = none := by decide
  obtain h0 | h3B := highBits_of_unassigned h
  · rw [← highBits_append_fieldF w, h0] at h ⊢
    exact hlow _ h
  · have h12 := extract_of_row h3B 12 2 rfl
    have h8 := extract_of_row h3B 8 4 rfl
    simp [decodeByMap, decodeGroup11, h12, h8]

/-- The map and the table read every word alike. -/
theorem decodeByMap_eq (w : InstrWord) : decodeByMap w = (decode w).toOption := by
  cases hd : decode w with
  | ok i =>
    obtain ⟨r, hr, hrow, rfl⟩ := row_of_decode hd
    exact (List.mem_append.1 hr).elim (opRowsA_onMap r · w hrow) (opRowsB_onMap r · w hrow)
  | error e =>
    rw [(no_row_of_decode_error hd).1, decode_error_iff] at hd
    exact decodeByMap_of_unassigned hd

/-- The search finds one row, so a word belongs to one. -/
theorem row_unique {r q : OpRow} {w : InstrWord} (hr : r ∈ opRows) (hq : q ∈ opRows)
    (hrw : r.matches w = true) (hqw : q.matches w = true) : r = q :=
  Option.some.inj ((find_row opRows_differ hr hrw).symm.trans (find_row opRows_differ hq hqw))

/-- Settles O57: disjoint rows, the ranges they leave, and the map row by row. -/
theorem opcodeTableIsExact : Obligations.OpcodeTableIsExact := by
  unfold Obligations.OpcodeTableIsExact
  exact ⟨fun r hr q hq w hrw hqw => congrArg OpRow.mnemonic (row_unique hr hq hrw hqw), rfl,
    decode_error_iff, decodeByMap_eq⟩

end Sys2Proof
end

section
/-! PROOFS. Data memory: what a write of a register does (R81), a read after a write (R91), the one form
a memory has (assumption 5), and CLRF, CLRW and MOVWF (R125, R126, R134). -/

namespace Sys2Proof.Machine

open Sys2Proof.Config (UnknownLoc)

/-! ### A write of a register -/

/-- STATUS after a data write, put together from its three parts (R38). -/
theorem statusAfterWrite_eq (u : FlagUpdate) (v old : Byte) :
    statusAfterWrite u v old = v.extractLsb' 5 3 ++ old.extractLsb' 3 2
      ++ (if u = noFlags then v.extractLsb' 0 3 else old.extractLsb' 0 3) := by
  apply BitVec.eq_of_getLsbD_eq
  intro j hj
  simp only [statusAfterWrite_getLsbD _ _ _ _ hj, FlagUpdate.affectsAny_eq_false_iff,
    BitVec.getLsbD_append, BitVec.getLsbD_extractLsb']
  by_cases hu : u = noFlags <;> interval_cases j <;> simp [hu]

/-- Settles O21: the registers of 8 bits take the byte, those of 5 bits its low bits, STATUS its three
parts, and the registers of the EEPROM stop the run. -/
theorem registerWrite : Obligations.RegisterWrite := by
  unfold Obligations.RegisterWrite
  intro s u v
  have hlow : v.extractLsb' 0 5 = v.setWidth 5 := (BitVec.setWidth_eq_extractLsb' (by omega)).symm
  refine ⟨rfl, ?status, rfl, ?pclath, ?portA, rfl, ?trisA, rfl, rfl, rfl, rfl, rfl, rfl, rfl,
    fun _ => rfl, fun _ _ => rfl, fun _ _ => rfl⟩
  case status => rw [← statusAfterWrite_eq]; rfl
  case pclath => rw [← hlow]; rfl
  case portA => rw [← hlow]; rfl
  case trisA => rw [← hlow]; rfl

/-! ### A read after a write -/

/-- Settles O22: the rules of byte memory, at the address a register is stored at. -/
theorem readAfterWrite : Obligations.ReadAfterWrite := by
  unfold Obligations.ReadAfterWrite
  intro s u v a b
  refine ⟨Memory.read_write_self _ _ _, fun hb => ?other, fun e => by rw [State.storeReg_eeprom]⟩
  case other => exact Memory.read_write_ne _ _ _ fun h => hb (BitVec.eq_of_toNat_eq h)

/-! ### The canonical form -/

/-- A value found at an address is listed there. -/
theorem mem_of_cellsFind {α : Type} {a : Nat} {v : α} {m : List (Nat × α)}
    (h : cellsFind a m = some v) : (a, v) ∈ m := by
  induction m with
  | nil => simp [cellsFind] at h
  | cons c m ih =>
    obtain ⟨b, u⟩ := c
    unfold cellsFind at h
    split at h
    · simp_all
    · exact List.mem_cons_of_mem _ (ih h)

/-- A canonical memory lists an address exactly when it reads there as another byte than the fill. -/
theorem Memory.cellsFind_eq {lo hi : Nat} {m : Memory} (hm : Memory.wf lo hi m) (a : Nat) :
    cellsFind a m = if m.read a = Config.memFill then none else some (m.read a) := by
  cases h : cellsFind a m with
  | none => simp [Memory.read, h]
  | some v =>
    obtain ⟨hv, -⟩ := hm.2 _ (mem_of_cellsFind h)
    simp [Memory.read, h, hv]

/-- The first address of one list is not below that of another in which it is found. -/
theorem cells_head_le {α : Type} {c d : Nat × α} {n : List (Nat × α)} (hn : cellsRise (d :: n))
    (h : cellsFind c.1 (d :: n) ≠ none) : d.1 ≤ c.1 := by
  by_contra hlt
  refine h (cellsFind_none_of_lt _ _ fun x hx => ?_)
  rcases List.mem_cons.1 hx with rfl | hx
  · omega
  · have := (List.pairwise_cons.1 hn).1 x hx
    omega

/-- Two lists of rising addresses that hold the same value at every address are the same list. -/
theorem cells_ext {α : Type} {m n : List (Nat × α)} (hm : cellsRise m) (hn : cellsRise n)
    (h : ∀ a, cellsFind a m = cellsFind a n) : m = n := by
  induction m generalizing n with
  | nil =>
    cases n with
    | nil => rfl
    | cons d n => simpa [cellsFind] using h d.1
  | cons c m ih =>
    cases n with
    | nil => simpa [cellsFind] using h c.1
    | cons d n =>
      have hc : cellsFind c.1 (c :: m) = some c.2 := if_pos rfl
      have hd : cellsFind d.1 (d :: n) = some d.2 := if_pos rfl
      have haddr : c.1 = d.1 := by
        have hdc := cells_head_le (c := c) hn (by simp [← h, hc])
        have hcd := cells_head_le (c := d) hm (by simp [h, hd])
        omega
      have hhead : c = d := Prod.ext haddr (by simpa [← haddr, ← h, hc] using hd)
      subst hhead
      obtain ⟨hcm, hm⟩ := List.pairwise_cons.1 hm
      obtain ⟨hcn, hn⟩ := List.pairwise_cons.1 hn
      congr 1
      refine ih hm hn fun a => ?_
      by_cases ha : c.1 = a
      · rw [← ha, cellsFind_none_of_lt _ _ hcm, cellsFind_none_of_lt _ _ hcn]
      · simpa [cellsFind, ha] using h a

/-- Settles O23: equal reads list the same addresses, and the order is fixed. -/
theorem equalReadsEqualMemory : Obligations.EqualReadsEqualMemory := by
  unfold Obligations.EqualReadsEqualMemory
  intro lo hi m n hm hn hread
  refine cells_ext hm.1 hn.1 fun a => ?_
  rw [Memory.cellsFind_eq hm, Memory.cellsFind_eq hn, hread]

/-! ### CLRF, MOVWF and CLRW -/

/-- A mnemonic whose check is that of the form `f` has the form and its range (R117). -/
theorem formF_of_check {m : Mnemonic} {mk : FileField → Instr}
    (h : ∀ l, (SourceLine.mk m l).check = checkF mk l) : SyntaxF m mk := by
  intro f
  rw [h, checkF]

/-- An opcode and an `f` field side by side are their sum by weight (R102, R108). -/
theorem opcode_append_fileField (op f : BitVec 7) :
    op ++ f = (op ++ 0#7 : InstrWord) + f.setWidth 14 := by
  have happend (j : BitVec 7) : (op ++ j).toNat = op.toNat * 128 + j.toNat :=
    toNat_highBits_append op j
  apply BitVec.eq_of_toNat_eq
  rw [BitVec.toNat_add, happend, happend, BitVec.toNat_setWidth, BitVec.toNat_zero]
  omega

/-- A row of format F codes its instruction (R102, R119); `n` is its place in the table of R114. -/
theorem codedF {n : Nat} {name : String} {pattern : InstrWord} {mk : FileField → Instr} {op : BitVec 7}
    (hrow : opRows[n]? = some ⟨name, pattern, 0x3F80, fun w => mk (fieldF w)⟩)
    (hop : op ++ 0#7 = pattern) (henc : ∀ f, encode (mk f) = op ++ f) : CodedF pattern mk := by
  refine ⟨fun w hw => ?word, fun f => ?canonical⟩
  case word => exact decode_of_row (List.mem_of_getElem? hrow) hw
  case canonical => rw [henc, opcode_append_fileField, hop]

/-- With what it depends on known, the register is written and not read (R125, R134). -/
theorem byteWriteOp_of_known {needs : List UnknownLoc} {f : FileField} {s : State}
    (hk : s.Known (pointerNeeds f ++ needs)) (x : ByteResult) :
    byteWriteOp needs x f s
      = s.advance.writeReg (s.operand f) x (writeMarks (s.operand f) x.flags) := by
  unfold byteWriteOp
  dsimp only
  rw [State.advance_operand, State.ifKnown_of_known _ (State.advance_known.2 hk)]

/-- An instruction of the shape `byteWriteOp` has the effect of its write on every register. -/
theorem byteWriteEffect_of_byteWriteOp {mk : FileField → Instr} {needs : List UnknownLoc}
    {val : State → Byte} {fl : FlagUpdate}
    (hexec : ∀ f s, exec (mk f) s = byteWriteOp needs ⟨val s, fl⟩ f s) :
    ByteWriteEffect mk needs val fl := by
  intro f s r hk
  have hwrite : exec (mk f) s = s.advance.writeReg r ⟨val s, fl⟩ (writeMarks r fl) :=
    (hexec f s).trans (byteWriteOp_of_known hk _)
  refine ⟨fun hr => ?toRegister, fun hr => ?eecon⟩
  case toRegister =>
    have hmarks (ls : List UnknownLoc) :
        (s.advance.storeReg fl (val s) r).marksAfter ls = s.marksAfter ls :=
      State.marksAfter_congr (by simp) (by simp) ls
    rw [hwrite, State.writeReg_of_not_eecon _ _ hr, State.markWritten_applyFlags, hmarks]
  case eecon => rw [hwrite, State.writeReg_of_eecon _ _ hr, State.advance_instrAddr]

/-- CLRW depends on no location (R126). -/
theorem exec_clrw (s : State) : exec .clrw s = .next { s with
    w := 0x00, status := putFlags { z := some true, dc := none, c := none } s.status,
    pc := s.pc + 1, cyc := 1, unwritten := s.marksAfter [.w, .z] } :=
  literalOp_of_known (needs := []) (by simp [State.Known]) (zResult 0x00)

/-- Settles O8: the shape that writes without a read, twice, and the literal shape for CLRW. -/
theorem clearAndMoveToFile : Obligations.ClearAndMoveToFile := by
  unfold Obligations.ClearAndMoveToFile
  refine ⟨⟨formF_of_check fun _ => rfl, codedF (n := 9) rfl rfl fun _ => rfl, ?clrf⟩,
    ⟨formNone_of_check fun _ => rfl, codedN (n := 10) rfl rfl, exec_clrw⟩,
    ⟨formF_of_check fun _ => rfl, codedF (n := 22) rfl rfl fun _ => rfl, ?movwf⟩⟩
  case clrf => exact byteWriteEffect_of_byteWriteOp fun _ _ => rfl
  case movwf => exact byteWriteEffect_of_byteWriteOp fun _ _ => rfl

end Sys2Proof.Machine
end

section
/-! PROOFS. What an instruction leaves alone: data memory and the special registers (R60), the flags
(R39), W and the return stack (R21, R27), and what no instruction writes (R73). -/

namespace Sys2Proof.Machine

/-! ### The store of the destination -/

/-- The state with the register stored that the instruction names as its destination, if it does. -/
def storeDest (i : Instr) (s : State) (u : FlagUpdate) (v : Byte) : State :=
  match destReg i s with
  | some r => s.storeReg u v r
  | none => s

theorem storeDest_of_none {i : Instr} {s : State} (h : destReg i s = none) (u : FlagUpdate) (v : Byte) :
    storeDest i s u v = s := by
  simp [storeDest, h]

theorem storeDest_of_some {i : Instr} {s : State} {r : Reg} (h : destReg i s = some r)
    (u : FlagUpdate) (v : Byte) : storeDest i s u v = s.storeReg u v r := by
  simp [storeDest, h]

/-- A field that only the store of `r₀` changes is as before when `r₀` is not the destination. -/
theorem storeDest_keeps {α : Type} {π : State → α} {r₀ : Reg} {i : Instr} {s : State} {u : FlagUpdate}
    {v : Byte} (hπ : ∀ r, r ≠ r₀ → π (s.storeReg u v r) = π s) (h : destReg i s ≠ some r₀) :
    π (storeDest i s u v) = π s := by
  cases hd : destReg i s with
  | none => rw [storeDest_of_none hd]
  | some r => rw [storeDest_of_some hd]; exact hπ r fun hr => h (hd.trans (congrArg some hr))

/-- A field that no store changes is as before. -/
theorem storeDest_keeps_always {α : Type} {π : State → α} {i : Instr} {s : State} {u : FlagUpdate}
    {v : Byte} (hπ : ∀ r, π (s.storeReg u v r) = π s) : π (storeDest i s u v) = π s := by
  cases hd : destReg i s with
  | none => rw [storeDest_of_none hd]
  | some r => rw [storeDest_of_some hd]; exact hπ r

/-! ### The frame of every instruction, once -/

/-- What an instruction `i` with the flag update `u` and the stored byte `v` makes of `s`: the
destination register is stored, and of the rest each field changes only by the instructions named. -/
structure Framed (i : Instr) (s : State) (u : FlagUpdate) (v : Byte) (t : State) : Prop where
  /-- The fields that take part in nothing but the store of the destination. -/
  rest : t = { storeDest i s u v with
    w := t.w, status := t.status, pc := t.pc, cyc := t.cyc, stack := t.stack, sp := t.sp,
    stackPtr := t.stackPtr, intcon := t.intcon, wdt := t.wdt, prescaler := t.prescaler,
    asleep := t.asleep, rbLast := t.rbLast, unwritten := t.unwritten }
  w : writesW i = false → t.w = s.w
  stack : usesStack i = false → t.stack = s.stack ∧ t.sp = s.sp ∧ t.stackPtr = s.stackPtr
  entries : (∀ k, i ≠ .call k) → t.stack = s.stack
  intcon : i ≠ .retfie → t.intcon = (storeDest i s u v).intcon
  flags : FlagsFit i u
  status : i ≠ .clrwdt → i ≠ .sleep → t.status = u.apply (storeDest i s u v).status
  toPd : i = .clrwdt ∨ i = .sleep → ∃ pd, t.status = withToPd true pd s.status
  watchdog : i ≠ .clrwdt → i ≠ .sleep →
    t.wdt = s.wdt ∧ t.prescaler = (storeDest i s u v).prescaler
  asleep : i ≠ .sleep → t.asleep = s.asleep
  rbLast : readReg i s ≠ some .portB → t.rbLast = s.rbLast
  cyc : t.cyc = 1 ∨ t.cyc = 2

/-- Reading the operand changes at most the latched levels of PORTB, and those only by a read of it. -/
theorem AfterOperand.eq {i : Instr} {s q : State} (h : AfterOperand i s q) :
    ∃ l, q = { s.advance with rbLast := l } ∧ (readReg i s ≠ some .portB → l = s.rbLast) := by
  obtain rfl | ⟨r, hr, rfl⟩ := h
  · exact ⟨s.rbLast, rfl, fun _ => rfl⟩
  · refine ⟨(s.advance.afterRead r).rbLast, ?_, fun hne => ?_⟩
    · cases r <;> rfl
    · exact State.afterRead_rbLast_of_ne fun h => hne (h ▸ hr)

theorem ToW.framed {i : Instr} {s t : State} (h : ToW i s t) : ∃ u v, Framed i s u v t := by
  obtain ⟨hw, hd, hs, q, v, u, c, hq, hu, rfl⟩ := h
  obtain ⟨l, rfl, hl⟩ := hq.eq
  have hclass : i ≠ .clrwdt ∧ i ≠ .sleep := by constructor <;> rintro rfl <;> simp [writesW] at hw
  refine ⟨u, v, ?_⟩
  cases c
  all_goals exact {
    rest := by rw [storeDest_of_none hd]; rfl
    w := by simp [hw]
    stack := fun _ => ⟨rfl, rfl, rfl⟩
    entries := fun _ => rfl
    intcon := fun _ => by rw [storeDest_of_none hd]; rfl
    flags := hu
    status := fun _ _ => by rw [storeDest_of_none hd]; rfl
    toPd := fun h => by simp [hclass] at h
    watchdog := fun _ _ => by rw [storeDest_of_none hd]; exact ⟨rfl, rfl⟩
    asleep := fun _ => rfl
    rbLast := hl
    cyc := by simp [State.skipIf, State.jump] }

/-- The operand read and the hardware PC moved on make no difference to what a store changes. -/
theorem State.storeReg_afterOperand (s : State) (l : BitVec 4) (u : FlagUpdate) (v : Byte) (r : Reg) :
    ∃ pc cyc, State.storeReg { s.advance with rbLast := l } u v r
        = { s.storeReg u v r with rbLast := l, pc := pc, cyc := cyc } ∧ (cyc = 1 ∨ cyc = 2) := by
  cases r with
  | pcl => exact ⟨_, 2, rfl, .inr rfl⟩
  | _ => exact ⟨_, 1, rfl, .inl rfl⟩

theorem ToRegister.framed {i : Instr} {s t : State} (h : ToRegister i s t) :
    ∃ u v, Framed i s u v t := by
  obtain ⟨hw, hs, q, r, v, u, m, c, hq, hu, hd, -, -, rfl⟩ := h
  obtain ⟨l, rfl, hl⟩ := hq.eq
  obtain ⟨pc, cyc, hstore, hcyc⟩ := s.storeReg_afterOperand l u v r
  have hclass : i ≠ .clrwdt ∧ i ≠ .sleep := by constructor <;> rintro rfl <;> simp [destReg] at hd
  refine ⟨u, v, ?_⟩
  rw [hstore]
  cases c
  all_goals exact {
    rest := by rw [storeDest_of_some hd]; rfl
    w := fun _ => s.storeReg_w u v r
    stack := fun _ => ⟨s.storeReg_stack u v r, s.storeReg_sp u v r, s.storeReg_stackPtr u v r⟩
    entries := fun _ => s.storeReg_stack u v r
    intcon := fun _ => by rw [storeDest_of_some hd]; rfl
    flags := hu
    status := fun _ _ => by rw [storeDest_of_some hd]; rfl
    toPd := fun h => by simp [hclass] at h
    watchdog := fun _ _ => by rw [storeDest_of_some hd]; exact ⟨s.storeReg_wdt u v r, rfl⟩
    asleep := fun _ => s.storeReg_asleep u v r
    rbLast := hl
    cyc := by simp [State.skipIf, State.jump, hcyc] }

/-- An instruction that stores no register and writes no flag has its frame told field by field. -/
theorem TestOnly.framed {i : Instr} {s t : State} (h : TestOnly i s t) :
    ∃ u v, Framed i s u v t := by
  obtain ⟨hw, hs, hd, hf, r, c, hr, rfl⟩ := h
  obtain ⟨l, hq, hl⟩ := AfterOperand.eq (.inr ⟨r, hr, rfl⟩)
  have hclass : i ≠ .clrwdt ∧ i ≠ .sleep := by constructor <;> rintro rfl <;> simp [readReg] at hr
  refine ⟨noFlags, 0, ?_⟩
  rw [hq]
  cases c
  all_goals exact {
    rest := by rw [storeDest_of_none hd]; rfl
    w := fun _ => rfl
    stack := fun _ => ⟨rfl, rfl, rfl⟩
    entries := fun _ => rfl
    intcon := fun _ => by rw [storeDest_of_none hd]; rfl
    flags := flagsFit_noFlags hf
    status := fun _ _ => by rw [storeDest_of_none hd]; rfl
    toPd := fun h => by simp [hclass] at h
    watchdog := fun _ _ => by rw [storeDest_of_none hd]; exact ⟨rfl, rfl⟩
    asleep := fun _ => rfl
    rbLast := hl
    cyc := by simp [State.skipIf, State.jump] }

/-- A control transfer changes the pc, the stack, W and INTCON. -/
theorem framed_of_transfer {i : Instr} {s t : State} (hd : destReg i s = none)
    (hf : flagClass i = .none) (hclass : i ≠ .clrwdt ∧ i ≠ .sleep) (hcyc : t.cyc = 2)
    (ht : t = { s with
      w := t.w, pc := t.pc, cyc := t.cyc, stack := t.stack, sp := t.sp, stackPtr := t.stackPtr,
      intcon := t.intcon, unwritten := t.unwritten })
    (hw : writesW i = false → t.w = s.w)
    (hs : usesStack i = false → t.stack = s.stack ∧ t.sp = s.sp ∧ t.stackPtr = s.stackPtr)
    (he : (∀ k, i ≠ .call k) → t.stack = s.stack) (hi : i ≠ .retfie → t.intcon = s.intcon) :
    Framed i s noFlags 0 t where
  rest := by rw [storeDest_of_none hd]; exact ht.trans (by rw [ht])
  w := hw
  stack := hs
  entries := he
  intcon := by rw [storeDest_of_none hd]; exact hi
  flags := flagsFit_noFlags hf
  status := fun _ _ => by rw [storeDest_of_none hd, ht]; rfl
  toPd := fun h => by simp [hclass] at h
  watchdog := fun _ _ => by rw [storeDest_of_none hd, ht]; exact ⟨rfl, rfl⟩
  asleep := fun _ => by rw [ht]
  rbLast := fun _ => by rw [ht]
  cyc := .inr hcyc

/-- NOP, CLRWDT and SLEEP change the pc, STATUS, the watchdog with the prescaler, and whether the core is
asleep. -/
theorem framed_of_system {i : Instr} {s t : State} (hd : destReg i s = none)
    (hf : flagClass i = .none)
    (ht : t = { s.advance with
      status := t.status, wdt := t.wdt, prescaler := t.prescaler, asleep := t.asleep })
    (hsame : i ≠ .clrwdt → i ≠ .sleep →
      t.status = s.status ∧ t.wdt = s.wdt ∧ t.prescaler = s.prescaler)
    (htoPd : i = .clrwdt ∨ i = .sleep → ∃ pd, t.status = withToPd true pd s.status)
    (hasleep : i ≠ .sleep → t.asleep = s.asleep) : Framed i s noFlags 0 t where
  rest := by rw [storeDest_of_none hd]; exact ht.trans (by rw [ht]; rfl)
  w := fun _ => by rw [ht]; rfl
  stack := fun _ => by rw [ht]; exact ⟨rfl, rfl, rfl⟩
  entries := fun _ => by rw [ht]; rfl
  intcon := fun _ => by rw [storeDest_of_none hd, ht]; rfl
  flags := flagsFit_noFlags hf
  status := fun h h' => by rw [storeDest_of_none hd]; exact (hsame h h').1
  toPd := htoPd
  watchdog := fun h h' => by rw [storeDest_of_none hd]; exact (hsame h h').2
  asleep := hasleep
  rbLast := fun _ => by rw [ht]; rfl
  cyc := .inl (by rw [ht]; rfl)

/-- Every instruction that answers a next state has the frame, shape by shape. -/
theorem exec_framed {i : Instr} {s t : State} (h : exec i s = .next t) :
    ∃ u v, Framed i s u v t := by
  rcases exec_next h with hW | hR | hT | ⟨k, rfl, _, _, _, rfl⟩ | ⟨k, rfl, rfl⟩
    | ⟨rfl, _, _, _, rfl⟩ | ⟨k, rfl, _, _, _, rfl⟩ | ⟨rfl, _, _, _, rfl⟩
    | ⟨rfl, rfl⟩ | ⟨rfl, rfl⟩ | ⟨rfl, rfl⟩
  · exact hW.framed
  · exact hR.framed
  · exact hT.framed
  · -- CALL
    exact ⟨_, _, framed_of_transfer rfl rfl (by simp) rfl rfl (fun _ => rfl) (by simp [usesStack])
      (fun h => absurd rfl (h k)) fun _ => rfl⟩
  · -- GOTO
    exact ⟨_, _, framed_of_transfer rfl rfl (by simp) rfl rfl (fun _ => rfl)
      (fun _ => ⟨rfl, rfl, rfl⟩) (fun _ => rfl) fun _ => rfl⟩
  · -- RETFIE
    exact ⟨_, _, framed_of_transfer rfl rfl (by simp) rfl rfl (fun _ => rfl) (by simp [usesStack])
      (fun _ => rfl) fun h => absurd rfl h⟩
  · -- RETLW
    exact ⟨_, _, framed_of_transfer rfl rfl (by simp) rfl rfl (by simp [writesW]) (by simp [usesStack])
      (fun _ => rfl) fun _ => rfl⟩
  · -- RETURN
    exact ⟨_, _, framed_of_transfer rfl rfl (by simp) rfl rfl (fun _ => rfl) (by simp [usesStack])
      (fun _ => rfl) fun _ => rfl⟩
  · -- NOP
    exact ⟨_, _, framed_of_system rfl rfl rfl (fun _ _ => ⟨rfl, rfl, rfl⟩) (by simp) fun _ => rfl⟩
  · -- CLRWDT
    exact ⟨_, _, framed_of_system rfl rfl rfl (by simp) (fun _ => ⟨true, rfl⟩) fun _ => rfl⟩
  · -- SLEEP
    exact ⟨_, _, framed_of_system rfl rfl rfl (by simp) (fun _ => ⟨false, rfl⟩) (by simp)⟩

/-! ### Data memory -/

/-- The destination register is written when it is a byte of data memory, and no other byte is. -/
theorem Framed.ram {i : Instr} {s t : State} {u : FlagUpdate} {v : Byte} (h : Framed i s u v t) :
    t.ram = s.ram ∨ ∃ a, destReg i s = some (.gpr a) ∧ t.ram = s.ram.write a.toNat v := by
  have hram : t.ram = (storeDest i s u v).ram := (congrArg State.ram h.rest :)
  by_cases hd : ∃ a, destReg i s = some (.gpr a)
  · obtain ⟨a, hd⟩ := hd
    exact .inr ⟨a, hd, hram.trans (by rw [storeDest_of_some hd]; rfl)⟩
  · cases hr : destReg i s with
    | none => exact .inl (hram.trans (by rw [storeDest_of_none hr]))
    | some r =>
      rw [storeDest_of_some hr] at hram
      exact .inl (hram.trans (State.storeReg_ram_of_ne fun a ha => hd ⟨a, ha ▸ hr⟩))

theorem Framed.eeprom {i : Instr} {s t : State} {u : FlagUpdate} {v : Byte} (h : Framed i s u v t) :
    t.eeprom = s.eeprom :=
  (congrArg State.eeprom h.rest :).trans (storeDest_keeps_always (s.storeReg_eeprom u v))

theorem Framed.eecon1 {i : Instr} {s t : State} {u : FlagUpdate} {v : Byte} (h : Framed i s u v t) :
    t.eecon1 = s.eecon1 :=
  (congrArg State.eecon1 h.rest :).trans (storeDest_keeps_always (s.storeReg_eecon1 u v))

/-- Settles O29: at most the destination is written, and a write leaves the other bytes. -/
theorem dataMemoryFrame : Obligations.DataMemoryFrame := by
  unfold Obligations.DataMemoryFrame
  intro i s t h
  obtain ⟨u, v, hf⟩ := exec_framed h
  refine ⟨fun n hn => ?_, hf.eeprom⟩
  obtain hram | ⟨a, hd, hram⟩ := hf.ram
  · rw [hram]
  · rw [hram, Memory.read_write_ne _ _ _ (hn a hd)]

/-! ### The special registers -/

/-- Settles O30: each register through the store of the destination, the others by the frame. -/
theorem specialRegisterFrame : Obligations.SpecialRegisterFrame := by
  unfold Obligations.SpecialRegisterFrame
  intro i s t h
  obtain ⟨u, v, hf⟩ := exec_framed h
  have hrest {α : Type} {π : State → α} {r₀ : Reg} (hπ : π t = π (storeDest i s u v))
      (hstore : ∀ r, r ≠ r₀ → π (s.storeReg u v r) = π s) (hd : destReg i s ≠ some r₀) : π t = π s :=
    hπ.trans (storeDest_keeps hstore hd)
  have htimer (r : Reg) (hr : r ≠ .tmr0) := State.storeReg_tmr0_of_ne (s := s) (u := u) (v := v) hr
  refine ⟨fun hd => ⟨?tmr0, ?inhibit⟩, fun hd hc hs => ?prescaler, ?optionReg, ?fsr, ?latA, ?trisA,
    ?latB, ?trisB, ?eedata, ?eeadr, ?pclath, fun hd hi => ?intcon, hf.eecon1, hf.rbLast⟩
  case tmr0 =>
    exact hrest (congrArg State.tmr0 hf.rest :) (fun r hr => have ⟨htmr0, _⟩ := htimer r hr; htmr0) hd
  case inhibit =>
    exact hrest (congrArg State.t0Inhibit hf.rest :)
      (fun r hr => have ⟨_, hinhibit, _⟩ := htimer r hr; hinhibit) hd
  case prescaler =>
    exact hrest (π := State.prescaler) (hf.watchdog hc hs).2
      (fun r hr => have ⟨_, _, hprescaler⟩ := htimer r hr; hprescaler) hd
  case optionReg =>
    exact hrest (congrArg State.optionReg hf.rest :) fun _ => State.storeReg_optionReg_of_ne
  case fsr => exact hrest (congrArg State.fsr hf.rest :) fun _ => State.storeReg_fsr_of_ne
  case latA => exact hrest (congrArg State.latA hf.rest :) fun _ => State.storeReg_latA_of_ne
  case trisA => exact hrest (congrArg State.trisA hf.rest :) fun _ => State.storeReg_trisA_of_ne
  case latB => exact hrest (congrArg State.latB hf.rest :) fun _ => State.storeReg_latB_of_ne
  case trisB => exact hrest (congrArg State.trisB hf.rest :) fun _ => State.storeReg_trisB_of_ne
  case eedata => exact hrest (congrArg State.eedata hf.rest :) fun _ => State.storeReg_eedata_of_ne
  case eeadr => exact hrest (congrArg State.eeadr hf.rest :) fun _ => State.storeReg_eeadr_of_ne
  case pclath => exact hrest (congrArg State.pclath hf.rest :) fun _ => State.storeReg_pclath_of_ne
  case intcon => exact hrest (π := State.intcon) (hf.intcon hi) (fun _ => State.storeReg_intcon_of_ne) hd

/-! ### The flags -/

theorem withToPd_getLsbD (pd : Bool) (b : Byte) {j : Nat} (hj : j ≠ 3) (hj' : j ≠ 4) :
    (withToPd true pd b).getLsbD j = b.getLsbD j := by
  rw [withToPd, setBit_getLsbD _ _ _ _ (by omega), if_neg hj', setBit_getLsbD _ _ _ _ (by omega),
    if_neg hj]

/-- The bits of STATUS that a store leaves: all when STATUS is not the destination, else `/TO` and `/PD`,
and Z, DC and C when the instruction affects a flag (R38). -/
theorem storeDest_status_getLsbD {i : Instr} {s : State} {u : FlagUpdate} {v : Byte} {j : Nat}
    (hkeep : destReg i s ≠ some .status ∨ (j < 5 ∧ (3 ≤ j ∨ u.affectsAny = true))) :
    (storeDest i s u v).status.getLsbD j = s.status.getLsbD j := by
  by_cases hd : destReg i s = some .status
  · obtain ⟨hj, hflag⟩ := hkeep.resolve_left fun h => h hd
    rw [storeDest_of_some hd]
    refine (statusAfterWrite_getLsbD u v s.status j (by omega)).trans (if_neg ?_)
    rintro (h5 | ⟨h3, hnone⟩)
    · omega
    · obtain h | h := hflag
      · omega
      · simp [h] at hnone
  · exact congrArg (BitVec.getLsbD · j)
      (storeDest_keeps (π := State.status) (fun _ => State.storeReg_status_of_ne) hd)

/-- Those bits are the flags' own update, `/TO` and `/PD` apart after CLRWDT and SLEEP (R39). -/
theorem Framed.status_getLsbD {i : Instr} {s t : State} {u : FlagUpdate} {v : Byte}
    (h : Framed i s u v t) {j : Nat} (hj : (i ≠ .clrwdt ∧ i ≠ .sleep) ∨ (j ≠ 3 ∧ j ≠ 4))
    (hkeep : destReg i s ≠ some .status ∨ (j < 5 ∧ (3 ≤ j ∨ u.affectsAny = true))) :
    t.status.getLsbD j = (u.apply s.status).getLsbD j := by
  by_cases hclass : i ≠ .clrwdt ∧ i ≠ .sleep
  · rw [h.status hclass.1 hclass.2, FlagUpdate.apply_getLsbD, FlagUpdate.apply_getLsbD]
    split
    case isTrue h0 => rw [← h0, storeDest_status_getLsbD hkeep]
    split
    case isTrue h1 => rw [← h1, storeDest_status_getLsbD hkeep]
    split
    case isTrue h2 => rw [← h2, storeDest_status_getLsbD hkeep]
    exact storeDest_status_getLsbD hkeep
  · obtain ⟨h3, h4⟩ := hj.resolve_left hclass
    have hi : i = .clrwdt ∨ i = .sleep := by tauto
    obtain ⟨pd, hstatus⟩ := h.toPd hi
    obtain ⟨-, -, -, hclassNone⟩ := h.flags
    have hnone : u = noFlags := by
      rw [← FlagUpdate.affectsAny_eq_false_iff, ← hclassNone]
      obtain rfl | rfl := hi <;> rfl
    rw [hstatus, withToPd_getLsbD _ _ h3 h4, hnone, noFlags_apply]

/-- Settles O31: bit by bit, from the update that fits the instruction's class. -/
theorem flagFrame : Obligations.FlagFrame := by
  unfold Obligations.FlagFrame
  intro i s t h
  obtain ⟨u, v, hf⟩ := exec_framed h
  obtain ⟨hdc, hz, hc, hnone⟩ := hf.flags
  refine ⟨fun hc hs => ?toPd, fun hd => ?bank, fun hd => ?flags⟩
  case toPd =>
    refine extractLsb'_eq_of_getLsbD 3 2 fun j hj => ?_
    rw [hf.status_getLsbD (.inl ⟨hc, hs⟩) (.inr (by omega)), FlagUpdate.apply_getLsbD,
      if_neg (by omega), if_neg (by omega), if_neg (by omega)]
  case bank =>
    refine extractLsb'_eq_of_getLsbD 5 3 fun j hj => ?_
    rw [hf.status_getLsbD (.inr (by omega)) (.inl hd), FlagUpdate.apply_getLsbD,
      if_neg (by omega), if_neg (by omega), if_neg (by omega)]
  case flags =>
    have hkeep (j : Nat) (hj : j < 3) : t.status.getLsbD j = (u.apply s.status).getLsbD j := by
      refine hf.status_getLsbD (.inr (by omega)) (hd.imp id fun hclass => ⟨by omega, .inr ?_⟩)
      simpa using mt hnone.2 hclass
    refine ⟨fun h1 => ?dc, fun h1 h2 => ?z, fun h1 h2 => ?c⟩
    case dc => rw [hkeep 1 (by omega), FlagUpdate.apply_getLsbD, hdc h1]; rfl
    case z => rw [hkeep 2 (by omega), FlagUpdate.apply_getLsbD, hz h1 h2]; rfl
    case c => rw [hkeep 0 (by omega), FlagUpdate.apply_getLsbD, hc h1 h2]; rfl

/-! ### W, the return stack, and what no instruction writes -/

/-- Settles O32, by the frame. -/
theorem workingRegisterAndStackFrame : Obligations.WorkingRegisterAndStackFrame := by
  unfold Obligations.WorkingRegisterAndStackFrame
  intro i s t h
  obtain ⟨u, v, hf⟩ := exec_framed h
  exact ⟨hf.w, hf.stack, hf.entries⟩

/-- Settles O33: no store reaches these fields. -/
theorem neverWrittenByInstructions : Obligations.NeverWrittenByInstructions := by
  unfold Obligations.NeverWrittenByInstructions
  intro i s t h
  obtain ⟨u, v, hf⟩ := exec_framed h
  have hrest {α : Type} {π : State → α} (hπ : π t = π (storeDest i s u v))
      (hstore : ∀ r, π (s.storeReg u v r) = π s) : π t = π s :=
    hπ.trans (storeDest_keeps_always hstore)
  refine ⟨?prog, ?cfg, ?pinA, ?pinB, ?pinMclr, ?env, ?resets, fun hc hs => (hf.watchdog hc hs).1,
    hf.asleep, hf.cyc⟩
  case prog => exact hrest (congrArg State.prog hf.rest :) (s.storeReg_prog u v)
  case cfg => exact hrest (congrArg State.cfg hf.rest :) (s.storeReg_cfg u v)
  case pinA => exact hrest (congrArg State.pinA hf.rest :) (s.storeReg_pinA u v)
  case pinB => exact hrest (congrArg State.pinB hf.rest :) (s.storeReg_pinB u v)
  case pinMclr => exact hrest (congrArg State.pinMclr hf.rest :) (s.storeReg_pinMclr u v)
  case env => exact hrest (congrArg State.env hf.rest :) (s.storeReg_env u v)
  case resets => exact hrest (congrArg State.resets hf.rest :) (s.storeReg_resets u v)

end Sys2Proof.Machine
end

section
/-! PROOFS. What a boundary leaves (R231, R232), the values after each reset (R58, R252), and the
invariant: it holds at reset and every step keeps it. -/

namespace Sys2Proof.Machine

/-! ### What a boundary can answer -/

/-- The fields the environment can change (R231). -/
theorem environment_fields (s : State) :
    ∃ pinA pinB pinMclr intcon tmr0 prescaler unwritten, (environment s).state = { s with
      pinA := pinA, pinB := pinB, pinMclr := pinMclr, intcon := intcon, tmr0 := tmr0,
      prescaler := prescaler, unwritten := unwritten, env := s.env.tail } := by
  obtain ⟨_, _, _, _, _, _, hevents⟩ := boundaryEvents_state s
  obtain ⟨_, _, hchange⟩ := (boundaryEvents s).state.portChange_state
  exact ⟨_, _, _, _, _, _, _, by rw [environment_state, hchange, hevents]⟩

theorem boundary_settled {s t : State} (h : boundary s = .settled t) :
    (∃ k, (environment s).reset = some k ∧ t = (environment s).state.resetBy k)
      ∨ t = { (environment s).state with cyc := 0 } := by
  unfold boundary at h
  rcases boundaryOf_cases (environment s) with ⟨k, hr, hb⟩ | ⟨-, -, -, hb⟩ | ⟨-, -, -, hb⟩
    | ⟨-, -, -, hb⟩ | ⟨-, -, -, hb⟩ <;> rw [hb] at h
  · exact .inl ⟨k, hr, (Boundary.settled.inj h).symm⟩
  · cases h
  · exact .inr (Boundary.settled.inj h).symm
  · cases h
  · cases h

theorem boundary_enter {s e : State} (h : boundary s = .enter e) : e = (environment s).state := by
  unfold boundary at h
  rcases boundaryOf_cases (environment s) with ⟨_, -, hb⟩ | ⟨-, -, -, hb⟩ | ⟨-, -, -, hb⟩
    | ⟨-, -, -, hb⟩ | ⟨-, -, -, hb⟩ <;> rw [hb] at h
  all_goals cases h
  rfl

/-- An instruction runs awake: the core was, or has just woken up (R230). -/
theorem boundary_run {s e : State} (h : boundary s = .run e) :
    e.asleep = false
      ∧ (e = (environment s).state ∨ ∃ byWatchdog, e = (environment s).state.wakeUp byWatchdog) := by
  have hawake (s : State) (b : Bool) : (s.wakeUp b).asleep = false := by cases b <;> rfl
  unfold boundary at h
  rcases boundaryOf_cases (environment s) with ⟨_, -, hb⟩ | ⟨-, -, -, hb⟩ | ⟨-, -, -, hb⟩
    | ⟨-, -, -, hb⟩ | ⟨-, ha, -, hb⟩ <;> rw [hb] at h
  all_goals cases h
  · exact ⟨hawake _ _, .inr ⟨_, rfl⟩⟩
  · exact ⟨ha, .inl rfl⟩

/-! ### The values after a reset -/

/-- Settles O51. -/
theorem resetStateValues : Obligations.ResetStateValues := by
  unfold Obligations.ResetStateValues
  decide

/-- Settles O50: what every reset does, and the bits beside the free ones. -/
theorem powerOnResetValues : Obligations.PowerOnResetValues := by
  unfold Obligations.PowerOnResetValues
  intro s t
  have hstatus : ∀ z dc c : Bool, setBit 2 z (setBit 1 dc (setBit 0 c 0x18#8)) &&& 0xF8 = 0x18 := by
    decide
  have hintcon : ∀ b : Bool, setBit 0 b 0x00#8 &&& 0xFE = 0x00 := by decide
  have heecon1 : ∀ b : Bool, setBit 3 b 0#5 &&& 0x17 = 0 := by decide
  exact ⟨rfl, hstatus _ _ _, rfl, hintcon _, rfl, rfl, rfl, heecon1 _, rfl, rfl, rfl, rfl, rfl, rfl, rfl,
    rfl, rfl, rfl, rfl, rfl, rfl⟩

/-- STATUS after a reset on MCLR: the low five bits, and of a sleeping core `/TO` = 1 and `/PD` = 0. -/
theorem statusAfterMclr_eq (asleep : Bool) (b : Byte) :
    statusAfterMclr asleep b = if asleep = true then 0x10 ||| (b &&& 0x07) else b &&& 0x1F := by
  have hasleep : ∀ b : Byte, withToPd true false (b &&& 0x1F) = 0x10 ||| (b &&& 0x07) := by decide
  cases asleep
  · rfl
  · exact hasleep b

/-- Settles O49: the common part of a reset, and STATUS by its cause. -/
theorem warmResetValues : Obligations.WarmResetValues := by
  unfold Obligations.WarmResetValues
  intro s
  have hwatchdog : ∀ b : Byte, withToPd false true (b &&& 0x1F) = 0x08 ||| (b &&& 0x07) := by decide
  refine ⟨?mclr, ?watchdog⟩
  case mclr => rw [← statusAfterMclr_eq]; rfl
  case watchdog => rw [← hwatchdog]; rfl

/-! ### The invariant -/

/-- Settles O53: empty memories, and a core awake. -/
theorem invariantAtReset : Obligations.InvariantAtReset where
  prog := ⟨.nil, by simp [State.reset]⟩
  ram := Memory.wf_nil _ _
  eeprom := Memory.wf_nil _ _
  sleeping := by simp [State.reset]
  eecon1 := rfl

/-- The invariant is about these fields alone. -/
theorem State.Inv.congr {s t : State} (h : s.Inv) (hcfg : t.cfg = s.cfg) (hprog : t.prog = s.prog)
    (hram : t.ram = s.ram) (heeprom : t.eeprom = s.eeprom) (heecon1 : t.eecon1 = s.eecon1)
    (hsleep : t.asleep = true → s.asleep = true ∧ t.status = s.status) : t.Inv where
  prog := by rw [hcfg, hprog]; exact h.prog
  ram := by rw [hram]; exact h.ram
  eeprom := by rw [hcfg, heeprom]; exact h.eeprom
  sleeping := fun ht => by
    obtain ⟨hs, hstatus⟩ := hsleep ht
    simpa only [State.flagTO, State.flagPD, hstatus] using h.sleeping hs
  eecon1 := by rw [heecon1]; exact h.eecon1

theorem State.Inv.environment {s : State} (h : s.Inv) : (environment s).state.Inv := by
  obtain ⟨_, _, _, _, _, _, _, he⟩ := environment_fields s
  rw [he]
  exact h.congr rfl rfl rfl rfl rfl fun hs => ⟨hs, rfl⟩

theorem State.Inv.resetBy {s : State} (h : s.Inv) (k : ResetKind) : (s.resetBy k).Inv := by
  have hmask : ∀ e : BitVec 5, e &&& 0b01000 &&& 0b10111 = 0 := by decide
  have hfree : ∀ b : Bool, setBit 3 b 0#5 &&& 0b10111 = 0 := by decide
  have hram : Memory.wf 0x0C 0x50 (s.resetBy k).ram := by
    cases k with
    | powerOn => exact powerOnRam_wf _
    | _ => exact h.ram
  have heecon1 : (s.resetBy k).eecon1 &&& 0b10111 = 0 := by
    cases k with
    | powerOn => exact hfree _
    | _ => exact hmask _
  obtain ⟨-, hawake, -, -, -, -, -, -, -, -, -, -, -, hcfg, hprog, heeprom, -⟩ := s.resetBy_common k
  exact {
    prog := by rw [hcfg, hprog]; exact h.prog
    ram := hram
    eeprom := by rw [hcfg, heeprom]; exact h.eeprom
    sleeping := by simp [hawake]
    eecon1 := heecon1 }

theorem State.Inv.wakeUp {s : State} (h : s.Inv) (byWatchdog : Bool) : (s.wakeUp byWatchdog).Inv := by
  cases byWatchdog <;> exact h.congr rfl rfl rfl rfl rfl (by simp [State.wakeUp])

theorem State.Inv.runCycles {s : State} (h : s.Inv) : s.runCycles.Inv :=
  h.congr (by simp) (by simp) (by simp) (by simp) (by simp) (by simp)

theorem State.Inv.interruptEntry {s t : State} (h : s.Inv) (ht : s.interruptEntry = .ok t) : t.Inv := by
  obtain ⟨_, _, _, rfl⟩ := State.interruptEntry_ok ht
  exact h.congr rfl rfl rfl rfl rfl fun hs => ⟨hs, rfl⟩

/-- The addresses of a register are those of R51. -/
def Reg.gprInRange : Reg → Bool
  | .gpr a => decide (0x0C ≤ a.toNat ∧ a.toNat < 0x50)
  | _ => true

theorem phys_gprInRange : ∀ a : DataAddr, (phys a).gprInRange = true := by decide

/-- The destination of an instruction is the register its `f` field names. -/
theorem destReg_eq_operand {i : Instr} {s : State} {r : Reg} (h : destReg i s = some r) :
    ∃ f, r = s.operand f := by
  unfold destReg at h
  split at h
  case h_19 => cases h
  all_goals exact ⟨_, (Option.some.inj h).symm⟩

theorem State.Inv.exec {i : Instr} {s t : State} (hs : s.Inv) (hawake : s.asleep = false)
    (h : exec i s = .next t) : t.Inv := by
  obtain ⟨hprog, hcfg, -⟩ := neverWrittenByInstructions i s t h
  obtain ⟨u, v, hf⟩ := exec_framed h
  refine ⟨?prog, ?ram, ?eeprom, fun ht => ?sleeping, ?eecon1⟩
  case prog => rw [hcfg, hprog]; exact hs.prog
  case ram =>
    obtain hram | ⟨a, hd, hram⟩ := hf.ram
    · rw [hram]; exact hs.ram
    · obtain ⟨f, hr⟩ := destReg_eq_operand hd
      have hrange : Reg.gprInRange (.gpr a) = true := hr ▸ phys_gprInRange _
      obtain ⟨hlo, hhi⟩ := of_decide_eq_true hrange
      rw [hram]
      exact Memory.write_keeps_wf _ _ _ hs.ram hlo hhi
  case eeprom => rw [hcfg, hf.eeprom]; exact hs.eeprom
  case sleeping =>
    have hsleep : i = .sleep := by
      by_contra hne
      rw [hf.asleep hne, hawake] at ht
      cases ht
    rw [hsleep, exec_sleep] at h
    obtain rfl := Host.Outcome.next.inj h
    simp [State.flagTO, State.flagPD]
  case eecon1 => rw [hf.eecon1]; exact hs.eecon1

/-- Settles O54, by what the step did. -/
theorem stepKeepsInvariant : Obligations.StepKeepsInvariant := by
  unfold Obligations.StepKeepsInvariant
  intro s t hs h
  have henv := hs.environment
  rcases step_next h with hb | ⟨e, u, hb, hu, rfl⟩ | ⟨e, i, u, hb, -, hu, rfl⟩
  · obtain ⟨k, -, rfl⟩ | rfl := boundary_settled hb
    · exact henv.resetBy k
    · exact henv.congr rfl rfl rfl rfl rfl fun hsleep => ⟨hsleep, rfl⟩
  · rw [boundary_enter hb] at hu
    exact (henv.interruptEntry hu).runCycles
  · obtain ⟨hawake, he⟩ := boundary_run hb
    have hinv : e.Inv := by
      obtain rfl | ⟨b, rfl⟩ := he
      · exact henv
      · exact henv.wakeUp b
    exact (hinv.exec hawake hu).runCycles

end Sys2Proof.Machine
end

section
/-! PROOFS. The environment (R231), its frame, a reset that comes first (R214, R251), and sleep and
wake-up (R230). -/

namespace Sys2Proof.Machine

/-! ### The frame of the environment -/

/-- INTCON has come from `a` to `b` by setting some of its three flag bits. -/
def FlagsRaised (a b : Byte) : Prop := ∃ m : Byte, b = a ||| (m &&& 0x07)

theorem FlagsRaised.refl (a : Byte) : FlagsRaised a a := ⟨0, by simp⟩

theorem FlagsRaised.trans {a b c : Byte} (hab : FlagsRaised a b) (hbc : FlagsRaised b c) :
    FlagsRaised a c := by
  obtain ⟨m, rfl⟩ := hab
  obtain ⟨k, rfl⟩ := hbc
  exact ⟨m ||| k, by rw [BitVec.or_assoc, BitVec.and_or_distrib_right]⟩

theorem FlagsRaised.enables {a b : Byte} (h : FlagsRaised a b) : b &&& 0xF8 = a &&& 0xF8 := by
  have hdisjoint : ∀ m : Byte, m &&& 0x07 &&& 0xF8 = 0#8 := by decide
  obtain ⟨m, rfl⟩ := h
  rw [BitVec.and_or_distrib_right, hdisjoint, BitVec.or_zero]

theorem FlagsRaised.none_cleared {a b : Byte} (h : FlagsRaised a b) : a &&& ~~~b = 0 := by
  obtain ⟨m, rfl⟩ := h
  rw [BitVec.not_or, ← BitVec.and_assoc, BitVec.and_not_self]
  exact BitVec.zero_and

/-- What the environment may do to a state: flags are raised, and Timer0 counts only the edges of T0CKI
and only awake. -/
structure EnvChange (s t : State) : Prop where
  flags : FlagsRaised s.intcon t.intcon
  timer : s.t0cs = false ∨ s.asleep = true → t.tmr0 = s.tmr0 ∧ t.prescaler = s.prescaler
  source : t.t0cs = s.t0cs
  asleep : t.asleep = s.asleep

theorem EnvChange.refl (s : State) : EnvChange s s := ⟨.refl _, fun _ => ⟨rfl, rfl⟩, rfl, rfl⟩

theorem EnvChange.trans {s t u : State} (h : EnvChange s t) (h' : EnvChange t u) : EnvChange s u where
  flags := h.flags.trans h'.flags
  timer := fun hs => by
    obtain ⟨htmr, hpre⟩ := h.timer hs
    obtain ⟨htmr', hpre'⟩ := h'.timer (by rwa [h.source, h.asleep])
    exact ⟨htmr'.trans htmr, hpre'.trans hpre⟩
  source := h'.source.trans h.source
  asleep := h'.asleep.trans h.asleep

theorem EnvOutcome.event_change (o : EnvOutcome) (e : EnvEvent) : EnvChange o.state (o.event e).state := by
  cases e with
  | pinsA v => exact ⟨.refl _, fun _ => ⟨rfl, rfl⟩, rfl, rfl⟩
  | pinsB v =>
    refine ⟨?_, fun _ => ⟨rfl, rfl⟩, rfl, rfl⟩
    change FlagsRaised o.state.intcon (o.state.setPinsB v).intcon
    rw [State.setPinsB_intcon]
    split
    · exact ⟨0x02, rfl⟩
    · exact .refl _
  | mclr high => cases high <;> exact ⟨.refl _, fun _ => ⟨rfl, rfl⟩, rfl, rfl⟩
  | t0Edge rising =>
    unfold EnvOutcome.event
    dsimp only
    split
    case isTrue h =>
      simp only [Bool.and_eq_true, Bool.not_eq_true'] at h
      obtain ⟨⟨hcs, hawake⟩, -⟩ := h
      refine ⟨?_, fun hoff => ?_, by simp [State.t0cs], by simp⟩
      · obtain h | h := o.state.tick_intcon
        · exact ⟨0, by simp [h]⟩
        · exact ⟨0x04, by simp [h]⟩
      · simp [hcs, hawake] at hoff
    case isFalse => exact .refl _
  | wdtTimeout =>
    unfold EnvOutcome.event
    dsimp only
    split
    · exact .refl _
    · split <;> exact .refl _
  | powerOn => exact .refl _

theorem EnvOutcome.events_change (l : List EnvEvent) (o : EnvOutcome) :
    EnvChange o.state (l.foldl EnvOutcome.event o).state := by
  induction l generalizing o with
  | nil => exact .refl _
  | cons e l ih => exact (o.event_change e).trans (ih (o.event e))

theorem State.portChange_change (s : State) : EnvChange s s.portChange := by
  obtain ⟨hrbif, -⟩ := setBit_intcon_flags s.intcon
  unfold State.portChange
  split
  · exact .refl _
  · exact ⟨⟨0x01, hrbif⟩, fun _ => ⟨rfl, rfl⟩, rfl, rfl⟩

theorem environment_change (s : State) : EnvChange s (environment s).state := by
  rw [environment_state]
  have hqueue : EnvChange s { s with env := s.env.tail } := ⟨.refl _, fun _ => ⟨rfl, rfl⟩, rfl, rfl⟩
  have hevents := EnvOutcome.events_change (s.env.headD []) ⟨{ s with env := s.env.tail }, none, false⟩
  exact (hqueue.trans hevents).trans (State.portChange_change _)

/-- The marks change by the detector of RB7:RB4 alone, which marks RBIF (R59). -/
theorem environment_unwritten (s : State) : (environment s).state.unwritten = s.unwritten
    ∨ (environment s).state.unwritten = s.marksAfter [.rbif] := by
  obtain ⟨_, _, _, _, _, _, hevents⟩ := boundaryEvents_state s
  have hsame : (boundaryEvents s).state.unwritten = s.unwritten := by rw [hevents]
  have hcfg : (boundaryEvents s).state.cfg = s.cfg := by rw [hevents]
  rw [environment_state, ← hsame, ← State.marksAfter_congr hcfg hsame]
  exact State.portChange_unwritten _

/-- Settles O34: the fields the actions reach, and what they do to INTCON and Timer0. -/
theorem environmentFrame : Obligations.EnvironmentFrame := by
  unfold Obligations.EnvironmentFrame
  intro s e
  have hchange := environment_change s
  refine ⟨?fields, environment_unwritten s, hchange.flags.enables, hchange.flags.none_cleared,
    hchange.timer⟩
  case fields =>
    obtain ⟨_, _, _, _, _, _, _, he⟩ := environment_fields s
    change e = _ at he
    rw [he]

/-! ### The actions of the environment -/

theorem EnvOutcome.request_of_none {o : EnvOutcome} (h : o.reset = none) (k : ResetKind) :
    o.request k = { o with reset := some k } := by
  simp [EnvOutcome.request, h]

/-- An earlier request stands (assumption 9). -/
theorem EnvOutcome.request_of_some {o : EnvOutcome} (h : o.reset ≠ none) (k : ResetKind) :
    o.request k = o := by
  obtain ⟨j, hj⟩ := Option.ne_none_iff_exists'.1 h
  cases o
  simp_all [EnvOutcome.request]

/-- The condition of an edge on T0CKI as the rule writes it (R221). -/
theorem EnvOutcome.event_t0Edge (o : EnvOutcome) (rising : Bool) :
    o.event (.t0Edge rising) =
      if o.state.t0cs = true ∧ o.state.asleep = false ∧ rising ≠ o.state.t0se
      then { o with state := o.state.tick } else o := by
  simp only [EnvOutcome.event, Bool.and_eq_true, Bool.not_eq_true', bne_iff_ne, and_assoc]

theorem EnvOutcome.event_wdtTimeout_off {o : EnvOutcome} (h : o.state.cfg.wdtEnabled = false) :
    o.event .wdtTimeout = o := by
  simp [EnvOutcome.event, h]

theorem EnvOutcome.event_wdtTimeout_asleep {o : EnvOutcome} (h : o.state.cfg.wdtEnabled = true)
    (ha : o.state.asleep = true) : o.event .wdtTimeout = { o with wdtWake := true } := by
  simp [EnvOutcome.event, h, ha]

theorem EnvOutcome.event_wdtTimeout_awake {o : EnvOutcome} (h : o.state.cfg.wdtEnabled = true)
    (ha : o.state.asleep = false) : o.event .wdtTimeout = o.request .watchdog := by
  simp [EnvOutcome.event, h, ha]

/-- The state of a boundary after its events, given the list the queue holds for it. -/
theorem boundaryEvents_of_env {s : State} {l : List EnvEvent} {later : List (List EnvEvent)}
    (h : s.env = l :: later ∨ (s.env = [] ∧ l = [] ∧ later = [])) :
    boundaryEvents s = l.foldl EnvOutcome.event ⟨{ s with env := later }, none, false⟩ := by
  unfold boundaryEvents
  obtain h | ⟨h, rfl, rfl⟩ := h <;> rw [h] <;> rfl

theorem environment_of_not_held {s : State}
    (h : (boundaryEvents s).state.pinMclr = true ∨ (boundaryEvents s).reset ≠ none) :
    environment s = { boundaryEvents s with state := (boundaryEvents s).state.portChange } := by
  have hheld : (boundaryEvents s).heldInReset = boundaryEvents s := by
    unfold EnvOutcome.heldInReset
    split
    · rfl
    · rename_i hlow
      exact EnvOutcome.request_of_some (h.resolve_left hlow) _
  rw [environment, hheld]

theorem environment_of_held {s : State} (hlow : (boundaryEvents s).state.pinMclr = false)
    (hnone : (boundaryEvents s).reset = none) :
    environment s = { boundaryEvents s with
      state := (boundaryEvents s).state.portChange, reset := some .mclr } := by
  have hheld : (boundaryEvents s).heldInReset = { boundaryEvents s with reset := some .mclr } := by
    unfold EnvOutcome.heldInReset
    rw [hlow, if_neg (by simp), EnvOutcome.request_of_none hnone]
  rw [environment, hheld]

/-- Settles O35: each action by its own lemma, and the boundary from its list of events. -/
theorem environmentActions : Obligations.EnvironmentActions := by
  unfold Obligations.EnvironmentActions
  refine ⟨fun o => ?action, fun s l later henv => ?boundary⟩
  case action =>
    refine ⟨fun _ => rfl, fun _ => rfl, rfl, fun hr => ?mclr, fun hr => ?mclrLater,
      fun hcs ha => ⟨fun hse => ?rising, fun hse => ?falling⟩, fun hoff rising => ?noEdge,
      EnvOutcome.event_wdtTimeout_off, EnvOutcome.event_wdtTimeout_asleep, fun hw ha hr => ?watchdog,
      fun hw ha hr => ?watchdogLater, fun hr => ?powerOn, fun hr => ?powerOnLater⟩
    case mclr =>
      exact EnvOutcome.request_of_none (o := { o with state := { o.state with pinMclr := false } }) hr _
    case mclrLater =>
      exact EnvOutcome.request_of_some (o := { o with state := { o.state with pinMclr := false } }) hr _
    case rising =>
      have hse : o.state.t0se = false := hse
      simp [EnvOutcome.event_t0Edge, hcs, ha, hse]
    case falling =>
      have hse : o.state.t0se = true := hse
      simp [EnvOutcome.event_t0Edge, hcs, ha, hse]
    case noEdge =>
      rw [EnvOutcome.event_t0Edge, if_neg]
      rintro ⟨hcs, ha, -⟩
      simp [hcs, ha] at hoff
    case watchdog =>
      rw [EnvOutcome.event_wdtTimeout_awake hw ha, EnvOutcome.request_of_none hr]
    case watchdogLater =>
      rw [EnvOutcome.event_wdtTimeout_awake hw ha, EnvOutcome.request_of_some hr]
    case powerOn => exact EnvOutcome.request_of_none hr _
    case powerOnLater => exact EnvOutcome.request_of_some hr _
  case boundary =>
    intro o
    have ho : boundaryEvents s = o := boundaryEvents_of_env henv
    rw [← ho]
    exact ⟨environment_of_not_held, environment_of_held⟩

/-! ### A reset comes first -/

theorem boundary_of_reset {s : State} {k : ResetKind} (h : (environment s).reset = some k) :
    boundary s = .settled ((environment s).state.resetBy k) := by
  unfold boundary boundaryOf
  rw [h]

theorem step_of_reset {s : State} {k : ResetKind} (h : (environment s).reset = some k) :
    step s = .next ((environment s).state.resetBy k) := by
  unfold step
  rw [boundary_of_reset h]

/-- Every reset clears GIE (R252). -/
theorem State.resetBy_gie (s : State) (k : ResetKind) : (s.resetBy k).gie = false := by
  have hmask : ∀ b : Byte, (b &&& 0x01).getLsbD 7 = false := by decide
  have hfree : ∀ b : Bool, (setBit 0 b 0x00#8).getLsbD 7 = false := by decide
  cases k with
  | powerOn => exact hfree _
  | _ => exact hmask _

/-- Every reset selects Bank 0 (R252). -/
theorem State.resetBy_rp0 (s : State) (k : ResetKind) : (s.resetBy k).rp0 = false := by
  have hwatchdog : ∀ b : Byte, (withToPd false true (b &&& 0x1F)).getLsbD 5 = false := by decide
  have hfree : ∀ z dc c : Bool,
      (setBit 2 z (setBit 1 dc (setBit 0 c 0x18#8))).getLsbD 5 = false := by decide
  have hmclr : ∀ (a : Bool) (b : Byte), (statusAfterMclr a b).getLsbD 5 = false := by decide
  cases k with
  | powerOn => exact hfree _ _ _
  | mclr => exact hmclr _ _
  | watchdog => exact hwatchdog _

/-- The event is neither a power-on nor a watchdog time-out that resets. -/
def NoOtherReset (s : State) (e : EnvEvent) : Prop :=
  e ≠ .powerOn ∧ (e = .wdtTimeout → s.cfg.wdtEnabled = false ∨ s.asleep = true)

/-- Such an event requests a reset only by a low level on MCLR. -/
theorem EnvOutcome.event_reset_of_noOther {o : EnvOutcome} {e : EnvEvent}
    (h : NoOtherReset o.state e) :
    (o.event e).reset = o.reset.or (if e = .mclr false then some .mclr else none) := by
  obtain ⟨hpower, hwdt⟩ := h
  rw [EnvOutcome.event_reset]
  cases e with
  | mclr high => cases high <;> rfl
  | wdtTimeout => obtain h | h := hwdt rfl <;> simp [h]
  | powerOn => exact absurd rfl hpower
  | _ => rfl

theorem EnvOutcome.event_noOther {o : EnvOutcome} (e : EnvEvent) {x : EnvEvent}
    (h : NoOtherReset o.state x) : NoOtherReset (o.event e).state x := by
  obtain ⟨_, _, _, _, _, _, hstate⟩ := o.event_state e
  rw [hstate]
  exact h

/-- With no other reset among them, the events of a boundary leave at most a request on MCLR. -/
theorem EnvOutcome.events_reset {l : List EnvEvent} {o : EnvOutcome}
    (ho : o.reset = none ∨ o.reset = some .mclr) (hl : ∀ e ∈ l, NoOtherReset o.state e) :
    (l.foldl EnvOutcome.event o).reset = none ∨ (l.foldl EnvOutcome.event o).reset = some .mclr := by
  induction l generalizing o with
  | nil => exact ho
  | cons e l ih =>
    refine ih ?_ fun x hx => EnvOutcome.event_noOther e (hl x (List.mem_cons_of_mem _ hx))
    rw [EnvOutcome.event_reset_of_noOther (hl e List.mem_cons_self)]
    obtain ho | ho := ho <;> rw [ho] <;> split <;> simp

/-- An event that is no low level on MCLR leaves a high level high. -/
theorem EnvOutcome.event_pinMclr {o : EnvOutcome} {e : EnvEvent} (h : o.state.pinMclr = true)
    (he : e ≠ .mclr false) : (o.event e).state.pinMclr = true := by
  cases e with
  | mclr high =>
    cases high
    · exact absurd rfl he
    · rfl
  | t0Edge rising =>
    rw [EnvOutcome.event_t0Edge]
    split <;> simp [h]
  | wdtTimeout =>
    unfold EnvOutcome.event
    dsimp only
    split
    · exact h
    · split <;> exact h
  | _ => exact h

/-- With no low level on MCLR among the events either, none of them requests a reset. -/
theorem EnvOutcome.events_no_reset {l : List EnvEvent} {o : EnvOutcome} (ho : o.reset = none)
    (hm : o.state.pinMclr = true) (hl : ∀ e ∈ l, e ≠ .mclr false ∧ NoOtherReset o.state e) :
    (l.foldl EnvOutcome.event o).reset = none ∧ (l.foldl EnvOutcome.event o).state.pinMclr = true := by
  induction l generalizing o with
  | nil => exact ⟨ho, hm⟩
  | cons e l ih =>
    obtain ⟨he, hother⟩ := hl e List.mem_cons_self
    refine ih ?_ (EnvOutcome.event_pinMclr hm he) fun x hx => ?_
    · rw [EnvOutcome.event_reset_of_noOther hother, ho, if_neg he]
      rfl
    · obtain ⟨hx, hnone⟩ := hl x (List.mem_cons_of_mem _ hx)
      exact ⟨hx, EnvOutcome.event_noOther e hnone⟩

theorem environment_pinMclr (s : State) :
    (environment s).state.pinMclr = (boundaryEvents s).state.pinMclr := by
  rw [environment_state, State.portChange_pinMclr]

/-- While MCLR is low and the queue is empty, a boundary is a reset on MCLR. -/
theorem environment_of_mclr_low {s : State} (henv : s.env = []) (hlow : s.pinMclr = false) :
    environment s = ⟨s.portChange, some .mclr, false⟩ := by
  have hevents : boundaryEvents s = ⟨s, none, false⟩ := by
    rw [boundaryEvents_of_env (.inr ⟨henv, rfl, rfl⟩)]
    simp only [List.foldl_nil, ← henv]
  rw [environment_of_held (by rw [hevents]; exact hlow) (by rw [hevents]), hevents]

theorem core_run_succ {n : Nat} {s t : State} (h : step s = .next t) :
    core.run (n + 1) s = core.run n t := by
  have hstep : core.step s = .next t := h
  simp only [Host.Core.run, hstep]

/-- One step of a core held in reset, with what it keeps. -/
theorem step_of_mclr_low {s : State} (henv : s.env = []) (hlow : s.pinMclr = false) :
    ∃ t, step s = .next t ∧ t = s.portChange.resetBy .mclr ∧ t.env = [] ∧ t.pinMclr = false
      ∧ t.w = s.w ∧ t.ram = s.ram ∧ t.tmr0 = s.tmr0 := by
  have henvironment := environment_of_mclr_low henv hlow
  refine ⟨_, step_of_reset (k := .mclr) (by rw [henvironment]), by rw [henvironment], ?_⟩
  obtain ⟨_, _, hchange⟩ := s.portChange_state
  rw [henvironment, hchange]
  exact ⟨henv, hlow, rfl, rfl, rfl⟩

/-- Held in reset, the core stays at 0000h and keeps what a reset keeps, for any number of steps. -/
theorem run_of_mclr_low (n : Nat) {s : State} (henv : s.env = []) (hlow : s.pinMclr = false) :
    ∃ t, core.run (n + 1) s = .next t ∧ (∃ q, t = State.resetBy q .mclr) ∧ t.w = s.w ∧ t.ram = s.ram
      ∧ t.tmr0 = s.tmr0 ∧ t.pinMclr = false := by
  induction n generalizing s with
  | zero =>
    obtain ⟨t, hstep, ht, -, hmclr, hw, hram, htmr⟩ := step_of_mclr_low henv hlow
    exact ⟨t, core_run_succ hstep, ⟨_, ht⟩, hw, hram, htmr, hmclr⟩
  | succ n ih =>
    obtain ⟨u, hstep, -, henvU, hlowU, hw, hram, htmr⟩ := step_of_mclr_low henv hlow
    obtain ⟨t, hrun, ht, hwT, hramT, htmrT, hmclr⟩ := ih henvU hlowU
    exact ⟨t, (core_run_succ hstep).trans hrun, ht, hwT.trans hw, hramT.trans hram, htmrT.trans htmr,
      hmclr⟩

/-- Settles O48: the reset itself, the requests of MCLR, and the core held by it. -/
theorem resetComesFirst : Obligations.ResetComesFirst := by
  unfold Obligations.ResetComesFirst
  refine ⟨fun s k hk => ?reset, fun s hlow => ⟨?requests, fun hl => ?onMclr⟩, fun s hhigh hl => ?none,
    fun n s henv hlow => ?held⟩
  case reset =>
    obtain ⟨hpc, hawake, hinhibit, hsp, hptr, -, -, -, -, -, -, -, -, -, hprog, heeprom, -⟩ :=
      (environment s).state.resetBy_common k
    obtain ⟨_, _, _, _, _, _, _, he⟩ := environment_fields s
    exact ⟨_, step_of_reset hk, rfl, hpc, hawake, State.resetBy_gie _ k, State.resetBy_rp0 _ k, hsp, hptr,
      hinhibit, hprog.trans (by rw [he]), heeprom.trans (by rw [he])⟩
  case requests =>
    rw [environment_pinMclr] at hlow
    rw [environment_reset, hlow]
    cases (boundaryEvents s).reset <;> simp
  case onMclr =>
    have hevents : (boundaryEvents s).reset = none ∨ (boundaryEvents s).reset = some .mclr :=
      EnvOutcome.events_reset (o := ⟨{ s with env := s.env.tail }, none, false⟩) (.inl rfl) hl
    rw [environment_pinMclr] at hlow
    rw [environment_reset, hlow]
    obtain h | h := hevents <;> simp [h]
  case none =>
    obtain ⟨hnone, hmclr⟩ :=
      EnvOutcome.events_no_reset (o := ⟨{ s with env := s.env.tail }, none, false⟩) rfl hhigh hl
    have hevents : (boundaryEvents s).state.pinMclr = true := hmclr
    rw [environment_reset, hevents]
    exact hnone
  case held =>
    obtain ⟨t, hrun, ⟨q, rfl⟩, hw, hram, htmr, hmclr⟩ := run_of_mclr_low n henv hlow
    exact ⟨_, hrun, rfl, rfl, State.resetBy_gie q _, hw, hram, htmr, hmclr⟩

/-! ### Sleep and wake-up -/

/-- The sources that wake the core are those of R230, Timer0's not among them. -/
theorem State.wakePending_iff (s : State) : s.wakePending = true ↔
    (s.intcon.getLsbD 4 = true ∧ s.intcon.getLsbD 1 = true)
    ∨ (s.intcon.getLsbD 3 = true ∧ s.intcon.getLsbD 0 = true)
    ∨ (s.intcon.getLsbD 6 = true ∧ s.eecon1.getLsbD 4 = true) := by
  simp [State.wakePending, or_assoc]

/-- A sleeping core without a reset request wakes up or sleeps on (R230, R232). -/
theorem boundary_of_asleep {s : State} (hr : (environment s).reset = none)
    (ha : (environment s).state.asleep = true) :
    boundary s = if ((environment s).wdtWake || (environment s).state.wakePending) = true
      then .run ((environment s).state.wakeUp (environment s).wdtWake)
      else .settled { (environment s).state with cyc := 0 } := by
  unfold boundary boundaryOf
  simp only [hr, ha, if_true]

/-- Settles O47: the three ways a sleeping core goes on. -/
theorem sleepAndWakeUp : Obligations.SleepAndWakeUp := by
  unfold Obligations.SleepAndWakeUp
  intro s o e woken hr ha
  have hboundary := boundary_of_asleep hr ha
  refine ⟨fun hw hnot => ?sleeps, fun hw hwoken => ?wakes, fun hw => ?watchdog⟩
  case sleeps =>
    have hpending : e.wakePending = false := by
      simpa only [Bool.not_eq_true] using mt e.wakePending_iff.1 hnot
    have hsettled : boundary s = .settled { e with cyc := 0 } := by
      rw [hboundary, hw, hpending]
      rfl
    unfold step
    rw [hsettled]
  case wakes =>
    rw [hboundary, hw, e.wakePending_iff.2 hwoken]
    rfl
  case watchdog =>
    have hto : ∀ b : Byte, setBit 4 false b = b &&& 0xEF := by decide
    rw [hboundary, hw, ← hto]
    rfl

end Sys2Proof.Machine
end

section
/-! PROOFS. Timer0: one tick (R221, R223), and the count of any number of instruction cycles, with the
prescaler on the watchdog and on Timer0. -/

namespace Sys2Proof.Machine

/-! ### One tick -/

/-- TMR0 counts up, and going from FFh to 00h sets T0IF (R223). -/
theorem State.timerInc_eq (s : State) : s.timerInc = { s with
    tmr0 := s.tmr0 + 1, intcon := if s.tmr0 = 0xFF then s.intcon ||| 0x04 else s.intcon } := by
  have hwrap : s.tmr0 + 1 = 0 ↔ s.tmr0 = 0xFF :=
    (by decide : ∀ b : Byte, b + 1 = 0 ↔ b = 0xFF) s.tmr0
  simp only [State.timerInc, hwrap, setBit_t0if]

theorem State.tick_of_free {s : State} (h : s.t0Inhibit = 0) : s.tick = s.timerTick := by
  unfold State.tick
  rw [h, if_pos (by rfl)]

theorem State.timerTick_direct {s : State} (h : s.psa = true) : s.timerTick = s.timerInc := by
  unfold State.timerTick
  rw [if_pos h]

/-- The rate divides 256, so the wrap of the prescaler count does not show (R221). -/
theorem State.prescaler_mod_rate (s : State) (n : Nat) :
    (s.prescaler + BitVec.ofNat 8 n).toNat % s.t0Rate = (s.prescaler.toNat + n) % s.t0Rate := by
  have hps : s.ps < 8 := (s.optionReg.extractLsb' 0 3).isLt
  have hdvd : s.t0Rate ∣ 256 := by
    have hpow : s.t0Rate ∣ 2 ^ 8 := pow_dvd_pow 2 (by omega)
    exact hpow
  rw [BitVec.toNat_add, BitVec.toNat_ofNat, Nat.mod_mod_of_dvd _ hdvd, Nat.add_mod,
    Nat.mod_mod_of_dvd _ hdvd, ← Nat.add_mod]

/-- With the prescaler on Timer0, TMR0 counts when the new count is a multiple of the rate (R221). -/
theorem State.timerTick_prescaled {s : State} (h : s.psa = false) : s.timerTick =
    if (s.prescaler.toNat + 1) % s.t0Rate = 0 then s.prescale.timerInc else s.prescale := by
  have hmod := s.prescaler_mod_rate 1
  unfold State.timerTick
  rw [h, if_neg (by simp)]
  change (if (s.prescaler + BitVec.ofNat 8 1).toNat % s.t0Rate = 0 then _ else _) = _
  rw [hmod]

/-- The rate by the low three bits of OPTION_REG (R48). -/
theorem State.t0Rate_eq (s : State) : s.t0Rate = 2 ^ ((s.optionReg &&& 0x07).toNat + 1) := by
  have hps : ∀ b : Byte, (b.extractLsb' 0 3).toNat = (b &&& 0x07).toNat := by decide
  rw [State.t0Rate, State.ps, hps]

/-- Settles O39: the inhibit, then the two assignments of the prescaler. -/
theorem timerTick : Obligations.TimerTick := by
  unfold Obligations.TimerTick
  intro s
  rw [← s.t0Rate_eq]
  refine ⟨State.tick_of_inhibited, fun h hpsa hne => ?counts, fun h hpsa hff => ?overflows,
    fun h hpsa hmod => ?prescales, fun h hpsa hmod => ?both⟩
  case counts =>
    rw [State.tick_of_free h, State.timerTick_direct hpsa, State.timerInc_eq, if_neg hne]
  case overflows =>
    rw [State.tick_of_free h, State.timerTick_direct hpsa, State.timerInc_eq, if_pos hff, hff]
    rfl
  case prescales =>
    rw [State.tick_of_free h, State.timerTick_prescaled hpsa, if_neg hmod]
    rfl
  case both =>
    rw [State.tick_of_free h, State.timerTick_prescaled hpsa, if_pos hmod, State.timerInc_eq]
    rfl

/-! ### Any number of cycles -/

/-- The state with TMR0 counted up `k` times: T0IF is set if TMR0 passed FFh (R223). -/
def State.countUp (s : State) (k : Nat) : State := { s with
  tmr0 := s.tmr0 + BitVec.ofNat 8 k,
  intcon := if 256 ≤ s.tmr0.toNat + k then s.intcon ||| 0x04 else s.intcon }

theorem State.countUp_zero (s : State) : s.countUp 0 = s := by
  have hlt := s.tmr0.isLt
  simp [State.countUp, show ¬ 256 ≤ s.tmr0.toNat by omega]

/-- One more count, whose overflow leaves T0IF set when it is set already. -/
theorem State.countUp_timerInc (s : State) (k : Nat) : (s.countUp k).timerInc = s.countUp (k + 1) := by
  have hlt := s.tmr0.isLt
  have hidem : ∀ b : Byte, b ||| 0x04 ||| 0x04 = b ||| 0x04 := by decide
  have htmr : s.tmr0 + BitVec.ofNat 8 k + 1 = s.tmr0 + BitVec.ofNat 8 (k + 1) := by
    rw [BitVec.add_assoc, BitVec.ofNat_add]
    rfl
  have hff : s.tmr0 + BitVec.ofNat 8 k = 0xFF ↔ (s.tmr0.toNat + k) % 256 = 255 := by
    rw [← BitVec.toNat_inj, BitVec.toNat_add, BitVec.toNat_ofNat]
    change _ = 255 ↔ _
    omega
  have hintcon : (if (s.countUp k).tmr0 = 0xFF then (s.countUp k).intcon ||| 0x04
      else (s.countUp k).intcon) = (s.countUp (k + 1)).intcon := by
    simp only [State.countUp, hff]
    grind
  rw [State.timerInc_eq, hintcon]
  simp only [State.countUp, htmr]

theorem State.cycles_succ (n : Nat) (s : State) : State.cycles (n + 1) s = (State.cycles n s).oneCycle :=
  State.cycles_add n 1 s

/-- Settles O40, by induction on the cycles. -/
theorem timerCountsCycles : Obligations.TimerCountsCycles := by
  unfold Obligations.TimerCountsCycles
  intro n s hcs hpsa hfree
  change State.cycles n s = s.countUp n
  induction n with
  | zero => exact s.countUp_zero.symm
  | succ n ih =>
    rw [State.cycles_succ, ih, ← State.countUp_timerInc]
    exact State.oneCycle_of_direct (s := s.countUp n) hfree hcs hpsa

/-- A cycle with the instruction clock as source ticks Timer0. -/
theorem State.oneCycle_of_free {s : State} (h : s.t0Inhibit = 0) (hcs : s.t0cs = false) :
    s.oneCycle = s.timerTick := by
  unfold State.oneCycle
  rw [← State.tick_of_free h, h]
  simp [hcs]

/-- How many multiples of the rate the prescaler passes in `n` counts (R221). -/
def State.multiples (s : State) (n : Nat) : Nat :=
  (s.prescaler.toNat + n) / s.t0Rate - s.prescaler.toNat / s.t0Rate

/-- One more count passes a multiple of the rate exactly when the new count is one. -/
theorem State.multiples_succ (s : State) (n : Nat) : s.multiples (n + 1)
    = s.multiples n + if (s.prescaler.toNat + (n + 1)) % s.t0Rate = 0 then 1 else 0 := by
  have hmono : s.prescaler.toNat / s.t0Rate ≤ (s.prescaler.toNat + n) / s.t0Rate :=
    Nat.div_le_div_right (by omega)
  simp only [State.multiples, ← Nat.add_assoc, Nat.succ_div, Nat.dvd_iff_mod_eq_zero]
  omega

/-- The state after `n` counts of the prescaler. -/
def State.prescaledCount (s : State) (n : Nat) : State :=
  { s.countUp (s.multiples n) with prescaler := s.prescaler + BitVec.ofNat 8 n }

theorem State.prescaledCount_tick {s : State} (hpsa : s.psa = false) (n : Nat) :
    (s.prescaledCount n).timerTick = s.prescaledCount (n + 1) := by
  have hpre : (s.prescaledCount n).prescale
      = { s.countUp (s.multiples n) with prescaler := s.prescaler + BitVec.ofNat 8 (n + 1) } := by
    rw [BitVec.ofNat_add, ← BitVec.add_assoc]
    rfl
  have hmod : ((s.prescaledCount n).prescaler + 1).toNat % (s.prescaledCount n).t0Rate
      = (s.prescaler.toNat + (n + 1)) % s.t0Rate := by
    rw [← s.prescaler_mod_rate (n + 1), BitVec.ofNat_add, ← BitVec.add_assoc]
    rfl
  have hpsa' : (s.prescaledCount n).psa = false := hpsa
  unfold State.timerTick
  rw [hpsa', if_neg (by simp), hmod, hpre]
  by_cases h : (s.prescaler.toNat + (n + 1)) % s.t0Rate = 0
  · rw [if_pos h, State.prescaledCount, s.multiples_succ, if_pos h, ← State.countUp_timerInc]
    rfl
  · rw [if_neg h, State.prescaledCount, s.multiples_succ, if_neg h]
    rfl

/-- Settles O41, by induction on the cycles: the prescaler counts each, and TMR0 the multiples. -/
theorem timerCountsThroughPrescaler : Obligations.TimerCountsThroughPrescaler := by
  unfold Obligations.TimerCountsThroughPrescaler
  intro n s hcs hpsa hfree
  change State.cycles n s = s.prescaledCount n
  induction n with
  | zero =>
    have hzero : s.multiples 0 = 0 := Nat.sub_self _
    rw [State.prescaledCount, hzero, State.countUp_zero, BitVec.add_zero]
    rfl
  | succ n ih =>
    rw [State.cycles_succ, ih, ← State.prescaledCount_tick hpsa]
    exact State.oneCycle_of_free (s := s.prescaledCount n) hfree hcs

end Sys2Proof.Machine
end

section
/-! PROOFS. One step: the instruction at `pc` (R232, R116), the faults of a fetch (R72, R115), an interrupt
that returns and is taken again (R213, R215), and a run that has ended (R257). -/

namespace Sys2Proof.Machine

/-! ### The instruction at `pc` -/

theorem step_of_run {s e : State} {i : Instr} (hb : boundary s = .run e) (hf : e.fetch = .ok i) :
    step s = onNext State.runCycles (exec i e) := by
  simp only [step, hb, hf]

theorem step_of_run_fault {s e : State} {f : Fault} (hb : boundary s = .run e)
    (hf : e.fetch = .error f) : step s = .fault f := by
  simp only [step, hb, hf]

/-- A quiet awake core with no interrupt to take runs on in the state it is in (R256). -/
theorem boundary_of_quiet_run {s : State} (hq : s.quiet = true) (ha : s.asleep = false)
    (hi : (s.gie && s.pending) = false) : boundary s = .run s := by
  rw [boundary_of_quiet hq ha, hi]
  rfl

/-- Settles O43: the fetch finds the word, and the quiet boundary leaves the state. -/
theorem stepRunsDecodedInstruction : Obligations.StepRunsDecodedInstruction := by
  unfold Obligations.StepRunsDecodedInstruction
  exact ⟨fun s t w i hb hw hd => step_of_run hb (State.fetch_of_decode hw hd),
    fun s w i hq ha hi hw hd =>
      step_of_run (boundary_of_quiet_run hq ha hi) (State.fetch_of_decode hw hd)⟩

theorem State.fetch_of_no_word {s : State} (h : s.prog.read (s.physAddr s.pc) = none) :
    s.fetch = .error (.fetchOutsideProgram s.pc) := by
  simp [State.fetch, State.progRead, h]

theorem State.fetch_of_illegal {s : State} {w : InstrWord} {e : DecodeError}
    (hw : s.prog.read (s.physAddr s.pc) = some w) (hd : decode w = .error e) :
    s.fetch = .error (.illegalInstruction s.pc w) := by
  simp [State.fetch, State.progRead, hw, hd]

/-- Only the physical address takes part in what a program read finds (R72). -/
theorem State.progRead_ok_iff (s : State) (a : ProgAddr) (w : InstrWord) :
    s.progRead a = .ok w ↔ s.prog.read (s.physAddr a) = some w := by
  unfold State.progRead
  cases s.prog.read (s.physAddr a) <;> simp

/-- Settles O44: the two faults of the fetch are the step's, and a read sees the physical address. -/
theorem fetchFaults : Obligations.FetchFaults := by
  unfold Obligations.FetchFaults
  refine ⟨fun s t hb hw => step_of_run_fault hb (State.fetch_of_no_word hw),
    fun s t w hb hw hd => step_of_run_fault hb (State.fetch_of_illegal hw hd),
    fun s a b w hab ha => ?wraps⟩
  case wraps =>
    have hphys : s.physAddr a = s.physAddr b := hab
    rw [State.progRead_ok_iff] at ha ⊢
    rwa [← hphys]

/-! ### What cycles and pops leave of an interrupted state -/

/-- The cycles of a step change no bit of INTCON but T0IF, and clear none (R223). -/
theorem State.cycles_intcon_getLsbD (n : Nat) (s : State) (i : Nat) :
    (i ≠ 2 → (State.cycles n s).intcon.getLsbD i = s.intcon.getLsbD i)
      ∧ (s.intcon.getLsbD i = true → (State.cycles n s).intcon.getLsbD i = true) := by
  have hbit (hi : i ≠ 2) : (0x04 : Byte).getLsbD i = false := by
    have h4 : (0x04 : Byte) = BitVec.twoPow 8 2 := rfl
    rw [h4, BitVec.getLsbD_twoPow]
    simp [Ne.symm hi]
  obtain h | h := State.cycles_intcon n s <;> rw [h]
  · exact ⟨fun _ => rfl, id⟩
  · refine ⟨fun hi => ?_, fun hs => ?_⟩
    · rw [BitVec.getLsbD_or, hbit hi, Bool.or_false]
    · rw [BitVec.getLsbD_or, hs, Bool.true_or]

/-- The same pins, port latch and queue are as quiet. -/
theorem State.quiet_congr {s t : State} (henv : t.env = s.env) (hmclr : t.pinMclr = s.pinMclr)
    (hpin : t.pinB = s.pinB) (hlast : t.rbLast = s.rbLast) (htris : t.trisB = s.trisB) :
    t.quiet = s.quiet := by
  unfold State.quiet
  rw [henv, hmclr, hpin, hlast, htris]

/-- With every enable and flag bit as before or set, a pending interrupt is pending (R211). -/
theorem State.pending_mono {s t : State} (hbits : ∀ i < 7, s.intcon.getLsbD i = true →
    t.intcon.getLsbD i = true) (hee : t.eecon1 = s.eecon1) (h : s.pending = true) :
    t.pending = true := by
  rw [pendingInterrupts] at h ⊢
  rw [hee]
  exact h.imp (.imp (hbits 5 (by omega)) (hbits 2 (by omega)))
    (.imp (.imp (hbits 4 (by omega)) (hbits 1 (by omega)))
      (.imp (.imp (hbits 3 (by omega)) (hbits 0 (by omega))) (.imp (hbits 6 (by omega)) id)))

theorem State.push_of_room {s : State} (h : s.cfg.stackPolicy = .fault → s.sp.val < 8)
    (v a : ProgAddr) : ∃ t, s.push v a = .ok t := by
  cases hp : s.cfg.stackPolicy with
  | fault => exact ⟨_, State.push_of_lt hp v a (h hp)⟩
  | circular => exact ⟨_, State.push_circular hp v a⟩

/-- A pop in a state with the stack a push has left gives the entry back and takes the depth and the
pointer back to where they were, under both policies (R27 to R29). -/
theorem State.pop_of_pushed {s t q : State} {v a b : ProgAddr} (h : s.push v a = .ok t)
    (hcfg : q.cfg = s.cfg) (hstack : q.stack = t.stack) (hsp : q.sp = t.sp)
    (hptr : q.stackPtr = t.stackPtr) :
    q.pop b = .ok (v, { q with sp := s.sp, stackPtr := s.stackPtr }) := by
  cases hp : s.cfg.stackPolicy with
  | fault =>
    have hroom : s.sp.val < 8 := by
      by_contra hfull
      rw [State.push_of_full hp v a (by omega)] at h
      cases h
    rw [State.push_of_lt hp v a hroom] at h
    obtain rfl := Except.ok.inj h
    have hdepth : q.sp.val = s.sp.val + 1 := by
      rw [hsp]
      exact Nat.mod_eq_of_lt (by omega)
    have hentry : q.stack[s.sp.val]? = some v := by simp [hstack]
    have hback : Fin.ofNat 9 s.sp.val = s.sp := Fin.ext (Nat.mod_eq_of_lt (by omega))
    rw [State.pop_of_succ (by rw [hcfg, hp]) b hdepth hentry, hback, ← hptr]
  | circular =>
    rw [State.push_circular hp v a] at h
    obtain rfl := Except.ok.inj h
    have hentry : q.stack[s.stackPtr.val]? = some v := by simp [hstack]
    rw [State.pop_circular (by rw [hcfg, hp]) b hptr hentry, ← hsp]

/-! ### An interrupt that returns -/

/-- The state in which a handler begins, from the state `p` after the push (R213). -/
def State.entered (p : State) : State :=
  State.cycles 2 { p with intcon := p.intcon &&& 0x7F, pc := 0x0004, cyc := 2 }

/-- With room on the stack a pending interrupt of a quiet core is entered. -/
theorem step_enters {s : State} (hq : s.quiet = true) (ha : s.asleep = false) (hg : s.gie = true)
    (hp : s.pending = true) (hroom : s.cfg.stackPolicy = .fault → s.sp.val < 8) :
    ∃ p, s.push s.pc s.pc = .ok p ∧ step s = .next p.entered := by
  obtain ⟨p, hpush⟩ := State.push_of_room hroom s.pc s.pc
  have hb : boundary s = .enter s := by
    rw [boundary_of_quiet hq ha, hg, hp]
    rfl
  exact ⟨p, hpush, step_of_enter_push_ok hb hpush⟩

/-- Entry changes of the state the stack, the pc, INTCON and Timer0, and leaves GIE 0 (R213). -/
theorem State.entered_of_push {s p : State} (h : s.push s.pc s.pc = .ok p) :
    p.entered.quiet = s.quiet ∧ p.entered.asleep = s.asleep ∧ p.entered.gie = false
      ∧ (∀ i < 7, s.intcon.getLsbD i = true → p.entered.intcon.getLsbD i = true)
      ∧ p.entered.w = s.w ∧ p.entered.status = s.status ∧ p.entered.pclath = s.pclath
      ∧ p.entered.fsr = s.fsr ∧ p.entered.ram = s.ram ∧ p.entered.eecon1 = s.eecon1 := by
  obtain ⟨stack, sp, ptr, rfl⟩ := State.push_ok h
  have hgie : ∀ b : Byte, (b &&& 0x7F).getLsbD 7 = false := by decide
  have hlow : ∀ b : Byte, ∀ i < 7, b.getLsbD i = true → (b &&& 0x7F).getLsbD i = true := by decide
  refine ⟨?quiet, by simp [State.entered], ?gie, fun i hi hs => ?flags, by simp [State.entered],
    by simp [State.entered], by simp [State.entered], by simp [State.entered], by simp [State.entered],
    by simp [State.entered]⟩
  case quiet => apply State.quiet_congr <;> simp [State.entered]
  case gie => exact ((State.cycles_intcon_getLsbD 2 _ 7).1 (by omega)).trans (hgie _)
  case flags => exact (State.cycles_intcon_getLsbD 2 _ i).2 (hlow _ i hi hs)

/-- The state in which the handler `q` returns to `s`, before its cycles (R173). -/
def State.returned (s q : State) : State := { q with
  pc := s.pc, sp := s.sp, stackPtr := s.stackPtr, cyc := 2, intcon := q.intcon ||| 0x80 }

/-- RETFIE with the stack as the entry left it goes back to the interrupted address (R173, R215). -/
theorem exec_retfie_entered {s p : State} (h : s.push s.pc s.pc = .ok p) :
    exec .retfie p.entered = .next (s.returned p.entered) := by
  have hcfg : p.entered.advance.cfg = s.cfg := by
    obtain ⟨stack, sp, ptr, rfl⟩ := State.push_ok h
    simp [State.entered]
  have hpop := State.pop_of_pushed (q := p.entered.advance) (b := p.entered.advance.instrAddr) h hcfg
    (by simp [State.entered]) (by simp [State.entered]) (by simp [State.entered])
  rw [exec_retfie, State.popReturn_of_pop_ok hpop]
  rfl

/-- The vector's instruction is fetched at 0004h modulo PROG_WORDS (R72, R213). -/
theorem State.entered_fetch {s p : State} (h : s.push s.pc s.pc = .ok p)
    (hw : s.prog.read (4 % s.cfg.progWords) = some 0x0009) : p.entered.fetch = .ok .retfie := by
  obtain ⟨stack, sp, ptr, rfl⟩ := State.push_ok h
  refine State.fetch_of_decode (w := 0x0009) ?_ (decodeOfEncode .retfie)
  simpa [State.entered, State.physAddr] using hw

/-- Settles O46: two steps, and the boundary after them. -/
theorem interruptReturnsAndReenters : Obligations.InterruptReturnsAndReenters := by
  unfold Obligations.InterruptReturnsAndReenters
  intro s hq ha hg hp hw hroom
  obtain ⟨p, hpush, hstep⟩ := step_enters hq ha hg hp hroom
  obtain ⟨hquiet, hawake, hgie, hflags, hW, hstatus, hpclath, hfsr, hram, hee⟩ :=
    State.entered_of_push hpush
  have hb : boundary p.entered = .run p.entered :=
    boundary_of_quiet_run (hquiet.trans hq) (hawake.trans ha) (by rw [hgie]; rfl)
  have hback := step_of_run hb (State.entered_fetch hpush hw)
  rw [exec_retfie_entered hpush, onNext_next] at hback
  have hset : ∀ b : Byte, (b ||| 0x80).getLsbD 7 = true
      ∧ ∀ i < 7, b.getLsbD i = true → (b ||| 0x80).getLsbD i = true := by decide
  obtain ⟨hset7, hkeep⟩ := hset p.entered.intcon
  have hgieU : (s.returned p.entered).runCycles.gie = true :=
    (State.cycles_intcon_getLsbD 2 _ 7).2 hset7
  have hpendingU : (s.returned p.entered).runCycles.pending = true :=
    State.pending_mono
      (fun i hi hs => (State.cycles_intcon_getLsbD 2 _ i).2 (hkeep i hi (hflags i hi hs)))
      (by simpa [State.returned] using hee) hp
  have hquietU : (s.returned p.entered).runCycles.quiet = true := by
    rw [← hq, ← hquiet]
    apply State.quiet_congr <;> simp [State.returned]
  refine ⟨_, (core_run_succ hstep).trans (core_run_succ hback), by simp [State.returned],
    by simp [State.returned], by simp [State.returned], hgieU, by simpa [State.returned] using hW,
    by simpa [State.returned] using hstatus, by simpa [State.returned] using hpclath,
    by simpa [State.returned] using hfsr, by simpa [State.returned] using hram, ?_⟩
  rw [boundary_of_quiet hquietU (by simpa [State.returned] using hawake.trans ha), hgieU, hpendingU]
  rfl

/-! ### A run that has ended -/

/-- Case (a) of R257: the word at `pc` is a GOTO to itself, and no interrupt can be taken. -/
theorem State.endedInLoop_iff (s : State) : s.endedInLoop = true ↔
    ∃ k, s.fetch = .ok (.goto k) ∧ s.target k = s.pc ∧ s.canInterrupt = false := by
  unfold State.endedInLoop
  split
  · rename_i k hk
    simp [hk]
  · rename_i hno
    simp only [Bool.false_eq_true, false_iff]
    rintro ⟨k, hk, -⟩
    exact hno k hk

/-- Case (b) of R257. -/
theorem State.endedAsleep_iff (s : State) : s.endedAsleep = true ↔
    s.asleep = true ∧ s.cfg.wdtEnabled = false ∧ s.intcon &&& 0x58 = 0 := by
  simp [State.endedAsleep, and_assoc]

/-- With GIE or every enable bit 0 no interrupt is taken, whatever flags are set (R212). -/
theorem State.no_interrupt_of_not_canInterrupt {s : State} (h : s.canInterrupt = false) :
    (s.gie && s.pending) = false := by
  have henables : ∀ b : Byte, b &&& 0x78 = 0 →
      b.getLsbD 3 = false ∧ b.getLsbD 4 = false ∧ b.getLsbD 5 = false ∧ b.getLsbD 6 = false := by decide
  simp only [State.canInterrupt, Bool.and_eq_false_iff, bne_eq_false_iff_eq] at h
  obtain hg | hi := h
  · rw [hg, Bool.false_and]
  · obtain ⟨h3, h4, h5, h6⟩ := henables _ hi
    simp only [State.pending, h3, h4, h5, h6, Bool.false_and, Bool.or_false, Bool.and_false]

/-- The cycles of a step set or clear no enable bit. -/
theorem State.cycles_canInterrupt (n : Nat) (s : State) :
    (State.cycles n s).canInterrupt = s.canInterrupt := by
  have hmask : ∀ b : Byte, (b ||| 0x04) &&& 0x78 = b &&& 0x78 := by decide
  have hgie : (State.cycles n s).gie = s.gie := (State.cycles_intcon_getLsbD n s 7).1 (by omega)
  unfold State.canInterrupt
  rw [hgie]
  obtain h | h := State.cycles_intcon n s <;> rw [h]
  rw [hmask]

/-- What an ended run keeps at every further step. -/
structure Stays (s t : State) : Prop where
  pc : t.pc = s.pc
  ended : t.runEnded = true
  quiet : t.quiet = true
  w : t.w = s.w
  ram : t.ram = s.ram
  stack : t.stack = s.stack
  sp : t.sp = s.sp

theorem Stays.trans {s t u : State} (h : Stays s t) (h' : Stays t u) : Stays s u :=
  ⟨h'.pc.trans h.pc, h'.ended, h'.quiet, h'.w.trans h.w, h'.ram.trans h.ram, h'.stack.trans h.stack,
    h'.sp.trans h.sp⟩

/-- A step that runs a GOTO to itself with no interrupt possible comes back to it. -/
theorem step_of_loop {s e : State} (hb : boundary s = .run e) (hq : e.quiet = true)
    (hl : e.endedInLoop = true) : ∃ t, step s = .next t ∧ Stays e t := by
  obtain ⟨k, hf, hpc, hno⟩ := e.endedInLoop_iff.1 hl
  have hstep := step_of_run hb hf
  have hgoto : exec (.goto k) e = .next { e with cyc := 2 } := by
    change Host.Outcome.next (e.advance.jump (e.target k)) = _
    rw [hpc]
    rfl
  rw [hgoto, onNext_next] at hstep
  refine ⟨_, hstep, by simp, ?ended, ?quiet, by simp, by simp, by simp, by simp⟩
  case ended =>
    have hloop : (State.cycles 2 { e with cyc := 2 }).endedInLoop = true := by
      refine (State.endedInLoop_iff _).2 ⟨k, ?_, ?_, (State.cycles_canInterrupt _ _).trans hno⟩
      · simpa [State.fetch, State.progRead, State.physAddr] using hf
      · simpa [State.target] using hpc
    exact Bool.or_eq_true_iff.2 (.inl hloop)
  case quiet =>
    rw [← hq]
    apply State.quiet_congr <;> simp

/-- A step of a quiet sleeping core that nothing wakes changes nothing but the count of its cycles. -/
theorem step_of_quiet_asleep {s : State} (hq : s.quiet = true) (ha : s.asleep = true)
    (hw : s.wakePending = false) : step s = .next { s with cyc := 0 } := by
  have hb : boundary s = .settled { s with cyc := 0 } := by
    rw [boundary_of_asleep (by rw [environment_of_quiet hq]) (by rw [environment_of_quiet hq]; exact ha),
      environment_of_quiet hq]
    simp [hw]
  simp only [step, hb]

theorem State.wakePending_of_disabled {s : State} (h : s.intcon &&& 0x58 = 0) :
    s.wakePending = false := by
  have henables : ∀ b : Byte, b &&& 0x58 = 0 →
      b.getLsbD 3 = false ∧ b.getLsbD 4 = false ∧ b.getLsbD 6 = false := by decide
  obtain ⟨h3, h4, h6⟩ := henables _ h
  simp only [State.wakePending, h3, h4, h6, Bool.false_and, Bool.or_false]

/-- One step of an ended run: awake it loops; asleep it sleeps on, or wakes into its loop (R257). -/
theorem step_of_ended {s : State} (hq : s.quiet = true) (he : s.runEnded = true) :
    ∃ t, step s = .next t ∧ Stays s t := by
  by_cases hrest : s.asleep = true ∧ s.wakePending = false
  · obtain ⟨ha, hw⟩ := hrest
    exact ⟨_, step_of_quiet_asleep hq ha hw, rfl, he, hq, rfl, rfl, rfl, rfl⟩
  · have hloop : s.endedInLoop = true := by
      refine (Bool.or_eq_true_iff.1 he).resolve_right fun hasleep => hrest ?_
      obtain ⟨ha, -, hmask⟩ := s.endedAsleep_iff.1 hasleep
      exact ⟨ha, State.wakePending_of_disabled hmask⟩
    cases ha : s.asleep with
    | false =>
      obtain ⟨k, -, -, hno⟩ := s.endedInLoop_iff.1 hloop
      exact step_of_loop
        (boundary_of_quiet_run hq ha (State.no_interrupt_of_not_canInterrupt hno)) hq hloop
    | true =>
      have hw : s.wakePending = true := by simpa [ha] using hrest
      have hb : boundary s = .run (s.wakeUp false) := by
        rw [boundary_of_asleep (by rw [environment_of_quiet hq])
          (by rw [environment_of_quiet hq]; exact ha), environment_of_quiet hq]
        simp [hw]
      obtain ⟨t, hstep, hstays⟩ := step_of_loop (e := s.wakeUp false) hb hq hloop
      exact ⟨t, hstep, hstays.pc, hstays.ended, hstays.quiet, hstays.w, hstays.ram, hstays.stack,
        hstays.sp⟩

/-- Settles O52, by induction on the steps. -/
theorem endedRunStays : Obligations.EndedRunStays := by
  unfold Obligations.EndedRunStays
  have hrun : ∀ (n : Nat) (s : State), s.quiet = true → s.runEnded = true →
      ∃ t, core.run n s = .next t ∧ Stays s t := by
    intro n
    induction n with
    | zero => exact fun s hq he => ⟨s, rfl, rfl, he, hq, rfl, rfl, rfl, rfl⟩
    | succ n ih =>
      intro s hq he
      obtain ⟨u, hstep, hu⟩ := step_of_ended hq he
      obtain ⟨t, ht, hstays⟩ := ih u hu.quiet hu.ended
      exact ⟨t, (core_run_succ hstep).trans ht, hu.trans hstays⟩
  intro n s hq he
  obtain ⟨t, ht, hstays⟩ := hrun n s hq he
  exact ⟨t, ht, hstays.pc, hstays.ended, hstays.quiet, hstays.w, hstays.ram, hstays.stack, hstays.sp⟩

end Sys2Proof.Machine
end

section
/-! PROOFS. The marks of rule R59: a read of an unwritten location is reported exactly when the effect
depends on one, and apart from these reports a run under `fault` is the run under `draw`. -/

namespace Sys2Proof.Machine

open Sys2Proof.Config (UnknownLoc)

/-! ### When a read is reported -/

/-- The result is the report of a read of an unwritten location. -/
def Reports (o : Result) : Prop := ∃ l, o = .fault (.uninitializedRead l)

@[simp] theorem not_reports_next (s : State) : ¬ Reports (.next s) := by
  rintro ⟨l, h⟩
  cases h

@[simp] theorem reports_fault (e : Fault) : Reports (.fault e) ↔ ∃ l, e = .uninitializedRead l := by
  simp [Reports]

@[simp] theorem reports_onNext (g : State → State) (o : Result) : Reports (onNext g o) ↔ Reports o := by
  cases o <;> simp [Reports]

/-- The result reports exactly when, under the policy that watches, a location of `needs` is unwritten. -/
def ReportsIff (s : State) (needs : List UnknownLoc) (o : Result) : Prop :=
  Reports o ↔ s.cfg.uninitPolicy = .fault ∧ ∃ l ∈ needs, l ∈ s.unwritten

theorem State.known_iff (s : State) (needs : List UnknownLoc) :
    s.Known needs ↔ ¬ (s.cfg.uninitPolicy = .fault ∧ ∃ l ∈ needs, l ∈ s.unwritten) := by
  unfold State.Known
  push Not
  rfl

/-- With a location unknown the operation stops and says so (R59). -/
theorem State.ifKnown_of_not_known {s : State} {needs : List UnknownLoc} (k : State → Result)
    (h : ¬ s.Known needs) : Reports (s.ifKnown needs k) := by
  obtain ⟨l, hl⟩ := Option.ne_none_iff_exists'.1 (mt State.firstUnwritten_eq_none.1 h)
  unfold State.ifKnown
  rw [hl]
  exact ⟨l, rfl⟩

/-- An operation that goes on when its needs are known, and then reports nothing, reports exactly by
its needs. -/
theorem State.ifKnown_reportsIff {s : State} {needs : List UnknownLoc} {k : State → Result}
    (hk : ¬ Reports (k s)) : ReportsIff s needs (s.ifKnown needs k) := by
  unfold ReportsIff
  by_cases h : s.Known needs
  · rw [State.ifKnown_of_known _ h]
    exact iff_of_false hk ((s.known_iff needs).1 h)
  · exact iff_of_true (State.ifKnown_of_not_known k h) (not_not.1 (mt (s.known_iff needs).2 h))

theorem reportsIff_of_no_needs {s : State} {o : Result} (h : ¬ Reports o) : ReportsIff s [] o :=
  iff_of_false h (by simp)

theorem State.writeReg_not_reports (s : State) (r : Reg) (x : ByteResult) (marks : List UnknownLoc) :
    ¬ Reports (s.writeReg r x marks) := by
  unfold State.writeReg
  split <;> simp

theorem State.writeDest_not_reports (s : State) (d : Dest) (r : Reg) (x : ByteResult) :
    ¬ Reports (s.writeDest d r x) := by
  cases d
  · exact not_reports_next _
  · exact s.writeReg_not_reports r x _

/-- The start of an instruction changes no mark. -/
theorem State.advance_reportsIff {s : State} {needs : List UnknownLoc} {o : Result}
    (h : ReportsIff s.advance needs o) : ReportsIff s needs o := h

theorem literalOp_reportsIff (needs : List UnknownLoc) (x : ByteResult) (s : State) :
    ReportsIff s needs (literalOp needs x s) :=
  State.advance_reportsIff (State.ifKnown_reportsIff (not_reports_next _))

theorem byteOp_reportsIff (needs : List UnknownLoc) (op : Byte → ByteResult) (d : Dest) (f : FileField)
    (s : State) :
    ReportsIff s (pointerNeeds f ++ s.readNeeds (s.operand f) ++ needs) (byteOp needs op d f s) := by
  unfold byteOp
  exact State.advance_reportsIff (State.ifKnown_reportsIff (State.writeDest_not_reports _ _ _ _))

theorem byteSkipOp_reportsIff (op : Byte → Byte) (d : Dest) (f : FileField) (s : State) :
    ReportsIff s (pointerNeeds f ++ s.readNeeds (s.operand f)) (byteSkipOp op d f s) := by
  unfold byteSkipOp
  refine State.advance_reportsIff (State.ifKnown_reportsIff ?_)
  dsimp only
  split
  · simp
  · rw [reports_onNext]
    exact State.writeDest_not_reports _ _ _ _

theorem byteWriteOp_reportsIff (needs : List UnknownLoc) (x : ByteResult) (f : FileField) (s : State) :
    ReportsIff s (pointerNeeds f ++ needs) (byteWriteOp needs x f s) := by
  unfold byteWriteOp
  exact State.advance_reportsIff (State.ifKnown_reportsIff (State.writeReg_not_reports _ _ _ _))

theorem bitWriteOp_reportsIff (v : Bool) (b : BitField) (f : FileField) (s : State) :
    ReportsIff s (pointerNeeds f ++ s.bitWriteNeeds (s.operand f)) (bitWriteOp v b f s) := by
  unfold bitWriteOp
  rw [← State.advance_bitWriteNeeds]
  exact State.advance_reportsIff (State.ifKnown_reportsIff (State.writeReg_not_reports _ _ _ _))

theorem bitTestOp_reportsIff (v : Bool) (b : BitField) (f : FileField) (s : State) :
    ReportsIff s (pointerNeeds f ++ s.bitNeeds (s.operand f) b) (bitTestOp v b f s) := by
  unfold bitTestOp
  exact State.advance_reportsIff (State.ifKnown_reportsIff (not_reports_next _))

/-- An instruction of the shape `byteOp` with a further location to know. -/
theorem exec_reportsIff_of_byteOp {i : Instr} {d : Dest} {f : FileField} {s : State}
    (needs : List UnknownLoc) (op : Byte → ByteResult) (hexec : exec i s = byteOp needs op d f s)
    (hneeds : needsOf i s = pointerNeeds f ++ s.readNeeds (s.operand f) ++ needs) :
    ReportsIff s (needsOf i s) (exec i s) := by
  rw [hexec, hneeds]
  exact byteOp_reportsIff needs op d f s

/-- An instruction of the shape `byteOp` that depends on no more than its operand. -/
theorem exec_reportsIff_of_byteOp_nil {i : Instr} {d : Dest} {f : FileField} {s : State}
    (op : Byte → ByteResult) (hexec : exec i s = byteOp [] op d f s)
    (hneeds : needsOf i s = pointerNeeds f ++ s.readNeeds (s.operand f)) :
    ReportsIff s (needsOf i s) (exec i s) :=
  exec_reportsIff_of_byteOp [] op hexec (hneeds.trans (List.append_nil _).symm)

/-- A push stops at a full stack alone (R29). -/
theorem State.push_error {s : State} {v a : ProgAddr} {e : Fault} (h : s.push v a = .error e) :
    e = .stackOverflow a := by
  unfold State.push at h
  split at h
  · split at h
    · cases h
    · exact (Except.error.inj h).symm
  · cases h

/-- A pop stops at an empty stack alone (R29). -/
theorem State.pop_error {s : State} {a : ProgAddr} {e : Fault} (h : s.pop a = .error e) :
    e = .stackUnderflow a := by
  unfold State.pop at h
  split at h
  · split at h
    · cases h
    · exact (Except.error.inj h).symm
  · cases h

theorem exec_call_not_reports (k : BitVec 11) (s : State) : ¬ Reports (exec (.call k) s) := by
  cases h : s.advance.push (s.pc + 1) s.pc with
  | error e => rw [exec_call_of_push_error h, State.push_error h]; simp
  | ok t => rw [exec_call_of_push_ok h]; simp

theorem State.popReturn_not_reports (s : State) : ¬ Reports s.popReturn := by
  cases h : s.pop s.instrAddr with
  | error e => rw [State.popReturn_of_pop_error h, State.pop_error h]; simp
  | ok p => rw [State.popReturn_of_pop_ok h]; simp

/-- Every instruction reports exactly by the locations it depends on (R59). -/
theorem exec_reportsIff (i : Instr) (s : State) : ReportsIff s (needsOf i s) (exec i s) := by
  cases i with
  | addlw k => exact literalOp_reportsIff _ _ s
  | andlw k => exact literalOp_reportsIff _ _ s
  | iorlw k => exact literalOp_reportsIff _ _ s
  | xorlw k => exact literalOp_reportsIff _ _ s
  | sublw k => exact literalOp_reportsIff _ _ s
  | movlw k => exact literalOp_reportsIff [] _ s
  | clrw => exact literalOp_reportsIff [] _ s
  | addwf d f => exact exec_reportsIff_of_byteOp [.w] (fun v => add8 s.w v) rfl rfl
  | andwf d f => exact exec_reportsIff_of_byteOp [.w] (fun v => zResult (s.w &&& v)) rfl rfl
  | iorwf d f => exact exec_reportsIff_of_byteOp [.w] (fun v => zResult (s.w ||| v)) rfl rfl
  | subwf d f => exact exec_reportsIff_of_byteOp [.w] (fun v => sub8 v s.w) rfl rfl
  | xorwf d f => exact exec_reportsIff_of_byteOp [.w] (fun v => zResult (s.w ^^^ v)) rfl rfl
  | rlf d f => exact exec_reportsIff_of_byteOp [.c] (fun v => rotateLeft v s.flagC) rfl rfl
  | rrf d f => exact exec_reportsIff_of_byteOp [.c] (fun v => rotateRight v s.flagC) rfl rfl
  | comf d f => exact exec_reportsIff_of_byteOp_nil (fun v => zResult (v ^^^ 0xFF)) rfl rfl
  | decf d f => exact exec_reportsIff_of_byteOp_nil (fun v => zResult (v - 1)) rfl rfl
  | incf d f => exact exec_reportsIff_of_byteOp_nil (fun v => zResult (v + 1)) rfl rfl
  | movf d f => exact exec_reportsIff_of_byteOp_nil (fun v => zResult v) rfl rfl
  | swapf d f => exact exec_reportsIff_of_byteOp_nil (fun v => plainResult (swapNibbles v)) rfl rfl
  | decfsz d f => exact byteSkipOp_reportsIff (fun v => v - 1) d f s
  | incfsz d f => exact byteSkipOp_reportsIff (fun v => v + 1) d f s
  | clrf f =>
    have h := byteWriteOp_reportsIff [] (zResult 0x00) f s
    rw [List.append_nil] at h
    exact h
  | movwf f => exact byteWriteOp_reportsIff [.w] (plainResult s.w) f s
  | bcf b f => exact bitWriteOp_reportsIff false b f s
  | bsf b f => exact bitWriteOp_reportsIff true b f s
  | btfsc b f => exact bitTestOp_reportsIff false b f s
  | btfss b f => exact bitTestOp_reportsIff true b f s
  | call k => exact reportsIff_of_no_needs (exec_call_not_reports k s)
  | goto k => exact reportsIff_of_no_needs (not_reports_next _)
  | retfie => exact reportsIff_of_no_needs ((reports_onNext _ _).not.2 (State.popReturn_not_reports _))
  | retlw k => exact reportsIff_of_no_needs (State.popReturn_not_reports _)
  | ret => exact reportsIff_of_no_needs (State.popReturn_not_reports _)
  | nop => exact reportsIff_of_no_needs (not_reports_next _)
  | clrwdt => exact reportsIff_of_no_needs (not_reports_next _)
  | sleep => exact reportsIff_of_no_needs (not_reports_next _)

/-- Settles O59, policy by policy. -/
theorem unwrittenReadIsReported : Obligations.UnwrittenReadIsReported := by
  unfold Obligations.UnwrittenReadIsReported
  intro i s
  have h := exec_reportsIff i s
  refine ⟨fun hp => h.trans (and_iff_right hp), fun hp l hl => ?_⟩
  obtain ⟨hfault, -⟩ := h.1 ⟨l, hl⟩
  rw [hp] at hfault
  cases hfault

end Sys2Proof.Machine
end

section
/-! PROOFS. A run under `UNINIT_POLICY = fault` is the run under `draw` as long as it reports no read of
an unwritten location (R59): every operation of the model commutes with dropping the marks. -/

namespace Sys2Proof.Machine

open Sys2Proof.Config (UnknownLoc)

/-! ### The instructions -/

/-- Under `draw` no location is watched. -/
theorem State.withoutMarks_known (s : State) (needs : List UnknownLoc) : s.withoutMarks.Known needs := by
  intro h
  cases h

@[simp] theorem State.withoutMarks_withoutMarks (s : State) :
    s.withoutMarks.withoutMarks = s.withoutMarks := rfl

theorem State.afterRead_withoutMarks (s : State) (r : Reg) :
    (s.afterRead r).withoutMarks = s.withoutMarks.afterRead r := by
  cases r <;> rfl

theorem State.skipIf_withoutMarks (s : State) (c : Bool) :
    (s.skipIf c).withoutMarks = s.withoutMarks.skipIf c := by
  cases c <;> rfl

theorem State.writeReg_withoutMarks (s : State) (r : Reg) (x : ByteResult) (marks : List UnknownLoc) :
    onNext State.withoutMarks (s.writeReg r x marks) = s.withoutMarks.writeReg r x marks := by
  cases r <;> rfl

theorem State.writeDest_withoutMarks (s : State) (d : Dest) (r : Reg) (x : ByteResult) :
    onNext State.withoutMarks (s.writeDest d r x) = s.withoutMarks.writeDest d r x := by
  cases d
  · rfl
  · exact s.writeReg_withoutMarks r x _

theorem State.regValue_withoutMarks (s : State) (r : Reg) :
    s.withoutMarks.regValue r = s.regValue r := by
  cases r <;> rfl

theorem onNext_onNext (g h : State → State) (o : Result) :
    onNext g (onNext h o) = onNext (fun s => g (h s)) o := by
  cases o <;> rfl

/-- The result reports, or it is the result `o'` of the state without marks. -/
def ReportsOrAgrees (o o' : Result) : Prop := Reports o ∨ onNext State.withoutMarks o = o'

/-- An operation that asks for known locations agrees when its continuation does. -/
theorem State.ifKnown_agrees {s : State} {needs needs' : List UnknownLoc} {k k' : State → Result}
    (h : onNext State.withoutMarks (k s) = k' s.withoutMarks) :
    ReportsOrAgrees (s.ifKnown needs k) (s.withoutMarks.ifKnown needs' k') := by
  by_cases hk : s.Known needs
  · rw [State.ifKnown_of_known _ hk, State.ifKnown_of_known _ (s.withoutMarks_known needs')]
    exact .inr h
  · exact .inl (State.ifKnown_of_not_known k hk)

theorem literalOp_agrees (needs : List UnknownLoc) (x : ByteResult) (s : State) :
    ReportsOrAgrees (literalOp needs x s) (literalOp needs x s.withoutMarks) :=
  State.ifKnown_agrees (s := s.advance) rfl

theorem byteOp_agrees (needs : List UnknownLoc) (op : Byte → ByteResult) (d : Dest) (f : FileField)
    (s : State) : ReportsOrAgrees (byteOp needs op d f s) (byteOp needs op d f s.withoutMarks) := by
  unfold byteOp
  refine State.ifKnown_agrees (s := s.advance) ?_
  rw [State.writeDest_withoutMarks, State.afterRead_withoutMarks, State.regValue_withoutMarks]
  rfl

theorem byteSkipOp_agrees (op : Byte → Byte) (d : Dest) (f : FileField) (s : State) :
    ReportsOrAgrees (byteSkipOp op d f s) (byteSkipOp op d f s.withoutMarks) := by
  unfold byteSkipOp
  refine State.ifKnown_agrees (s := s.advance) ?_
  have hop : s.withoutMarks.advance.operand f = s.advance.operand f := rfl
  simp only [hop]
  by_cases hpcl : d = .f ∧ s.advance.operand f = .pcl
  · rw [if_pos hpcl, if_pos hpcl]
    rfl
  · rw [if_neg hpcl, if_neg hpcl, onNext_onNext]
    simp only [State.skipIf_withoutMarks, State.regValue_withoutMarks]
    rw [← State.afterRead_withoutMarks, ← State.writeDest_withoutMarks, onNext_onNext]

theorem byteWriteOp_agrees (needs : List UnknownLoc) (x : ByteResult) (f : FileField) (s : State) :
    ReportsOrAgrees (byteWriteOp needs x f s) (byteWriteOp needs x f s.withoutMarks) := by
  unfold byteWriteOp
  exact State.ifKnown_agrees (s := s.advance) (State.writeReg_withoutMarks _ _ _ _)

theorem bitWriteOp_agrees (v : Bool) (b : BitField) (f : FileField) (s : State) :
    ReportsOrAgrees (bitWriteOp v b f s) (bitWriteOp v b f s.withoutMarks) := by
  unfold bitWriteOp
  refine State.ifKnown_agrees (s := s.advance) ?_
  rw [State.writeReg_withoutMarks, State.afterRead_withoutMarks, State.regValue_withoutMarks]
  rfl

theorem bitTestOp_agrees (v : Bool) (b : BitField) (f : FileField) (s : State) :
    ReportsOrAgrees (bitTestOp v b f s) (bitTestOp v b f s.withoutMarks) := by
  unfold bitTestOp
  refine State.ifKnown_agrees (s := s.advance) ?_
  rw [State.regValue_withoutMarks, ← State.afterRead_withoutMarks, ← State.skipIf_withoutMarks]
  rfl

/-! ### The stack -/

theorem State.push_withoutMarks (s : State) (v a : ProgAddr) :
    s.withoutMarks.push v a = (s.push v a).map State.withoutMarks := by
  unfold State.push
  have hcfg : s.withoutMarks.cfg.stackPolicy = s.cfg.stackPolicy := rfl
  rw [hcfg]
  cases s.cfg.stackPolicy with
  | circular => rfl
  | fault =>
    have hsp : s.withoutMarks.sp = s.sp := rfl
    by_cases h : s.sp.val < 8
    · simp only [hsp, dif_pos h]
      rfl
    · simp only [hsp, dif_neg h]
      rfl

theorem State.pop_withoutMarks (s : State) (a : ProgAddr) :
    s.withoutMarks.pop a = (s.pop a).map (Prod.map id State.withoutMarks) := by
  unfold State.pop
  have hcfg : s.withoutMarks.cfg.stackPolicy = s.cfg.stackPolicy := rfl
  rw [hcfg]
  cases s.cfg.stackPolicy with
  | circular => rfl
  | fault =>
    have hsp : s.withoutMarks.sp = s.sp := rfl
    by_cases h : 0 < s.sp.val
    · simp only [hsp, dif_pos h]
      rfl
    · simp only [hsp, dif_neg h]
      rfl

theorem State.popReturn_withoutMarks (s : State) :
    onNext State.withoutMarks s.popReturn = s.withoutMarks.popReturn := by
  have hpop := s.pop_withoutMarks s.instrAddr
  unfold State.popReturn
  have hat : s.withoutMarks.instrAddr = s.instrAddr := rfl
  rw [hat, hpop]
  cases s.pop s.instrAddr <;> rfl

theorem State.interruptReturn_withoutMarks (s : State) :
    onNext State.withoutMarks s.interruptReturn = s.withoutMarks.interruptReturn := by
  unfold State.interruptReturn
  rw [← State.popReturn_withoutMarks, onNext_onNext, onNext_onNext]
  rfl

theorem State.interruptEntry_withoutMarks (s : State) :
    s.withoutMarks.interruptEntry = s.interruptEntry.map State.withoutMarks := by
  have hpush := s.push_withoutMarks s.pc s.pc
  unfold State.interruptEntry
  have hpc : s.withoutMarks.pc = s.pc := rfl
  rw [hpc, hpush]
  cases s.push s.pc s.pc <;> rfl

theorem exec_call_withoutMarks (k : BitVec 11) (s : State) :
    onNext State.withoutMarks (exec (.call k) s) = exec (.call k) s.withoutMarks := by
  have hpush : s.withoutMarks.advance.push (s.withoutMarks.pc + 1) s.withoutMarks.pc
      = (s.advance.push (s.pc + 1) s.pc).map State.withoutMarks :=
    s.advance.push_withoutMarks (s.pc + 1) s.pc
  cases h : s.advance.push (s.pc + 1) s.pc with
  | error e =>
    rw [h] at hpush
    rw [exec_call_of_push_error h, exec_call_of_push_error hpush]
    rfl
  | ok t =>
    rw [h] at hpush
    rw [exec_call_of_push_ok h, exec_call_of_push_ok hpush]
    rfl

/-- Every instruction reports, or does what it does without marks. -/
theorem exec_agrees (i : Instr) (s : State) : ReportsOrAgrees (exec i s) (exec i s.withoutMarks) := by
  cases i with
  | addlw k => exact literalOp_agrees [.w] (add8 s.w k) s
  | andlw k => exact literalOp_agrees [.w] (zResult (s.w &&& k)) s
  | iorlw k => exact literalOp_agrees [.w] (zResult (s.w ||| k)) s
  | xorlw k => exact literalOp_agrees [.w] (zResult (s.w ^^^ k)) s
  | sublw k => exact literalOp_agrees [.w] (sub8 k s.w) s
  | movlw k => exact literalOp_agrees [] (plainResult k) s
  | clrw => exact literalOp_agrees [] (zResult 0x00) s
  | addwf d f => exact byteOp_agrees [.w] (fun v => add8 s.w v) d f s
  | andwf d f => exact byteOp_agrees [.w] (fun v => zResult (s.w &&& v)) d f s
  | iorwf d f => exact byteOp_agrees [.w] (fun v => zResult (s.w ||| v)) d f s
  | subwf d f => exact byteOp_agrees [.w] (fun v => sub8 v s.w) d f s
  | xorwf d f => exact byteOp_agrees [.w] (fun v => zResult (s.w ^^^ v)) d f s
  | rlf d f => exact byteOp_agrees [.c] (fun v => rotateLeft v s.flagC) d f s
  | rrf d f => exact byteOp_agrees [.c] (fun v => rotateRight v s.flagC) d f s
  | comf d f => exact byteOp_agrees [] (fun v => zResult (v ^^^ 0xFF)) d f s
  | decf d f => exact byteOp_agrees [] (fun v => zResult (v - 1)) d f s
  | incf d f => exact byteOp_agrees [] (fun v => zResult (v + 1)) d f s
  | movf d f => exact byteOp_agrees [] (fun v => zResult v) d f s
  | swapf d f => exact byteOp_agrees [] (fun v => plainResult (swapNibbles v)) d f s
  | decfsz d f => exact byteSkipOp_agrees (fun v => v - 1) d f s
  | incfsz d f => exact byteSkipOp_agrees (fun v => v + 1) d f s
  | clrf f => exact byteWriteOp_agrees [] (zResult 0x00) f s
  | movwf f => exact byteWriteOp_agrees [.w] (plainResult s.w) f s
  | bcf b f => exact bitWriteOp_agrees false b f s
  | bsf b f => exact bitWriteOp_agrees true b f s
  | btfsc b f => exact bitTestOp_agrees false b f s
  | btfss b f => exact bitTestOp_agrees true b f s
  | call k => exact .inr (exec_call_withoutMarks k s)
  | goto k => exact .inr rfl
  | retfie => exact .inr s.advance.interruptReturn_withoutMarks
  | retlw k => exact .inr (s.advance.setW k).popReturn_withoutMarks
  | ret => exact .inr s.advance.popReturn_withoutMarks
  | nop => exact .inr rfl
  | clrwdt => exact .inr rfl
  | sleep => exact .inr rfl

/-! ### The boundary -/

theorem State.tick_withoutMarks (s : State) : s.withoutMarks.tick = s.tick.withoutMarks := by
  have hfree : s.withoutMarks.t0Inhibit = s.t0Inhibit := rfl
  have hpsa : s.withoutMarks.psa = s.psa := rfl
  have hrate : s.withoutMarks.t0Rate = s.t0Rate := rfl
  have hpre : s.withoutMarks.prescaler = s.prescaler := rfl
  unfold State.tick State.timerTick
  rw [hfree, hpsa, hrate, hpre]
  split
  · split
    · rfl
    · split <;> rfl
  · rfl

theorem State.oneCycle_withoutMarks (s : State) :
    s.withoutMarks.oneCycle = s.oneCycle.withoutMarks := by
  have hfree : s.withoutMarks.t0Inhibit = s.t0Inhibit := rfl
  have hcs : s.withoutMarks.t0cs = s.t0cs := rfl
  unfold State.oneCycle
  rw [hfree, hcs, State.tick_withoutMarks]
  split
  · split <;> rfl
  · rfl
  · rfl

theorem State.cycles_withoutMarks (n : Nat) (s : State) :
    State.cycles n s.withoutMarks = (State.cycles n s).withoutMarks := by
  induction n generalizing s with
  | zero => rfl
  | succ n ih =>
    unfold State.cycles
    rw [State.oneCycle_withoutMarks, ih]

theorem State.runCycles_withoutMarks (s : State) : s.withoutMarks.runCycles = s.runCycles.withoutMarks :=
  s.cycles_withoutMarks s.cyc

/-- What the environment has done, without the marks. -/
def EnvOutcome.withoutMarks (o : EnvOutcome) : EnvOutcome := { o with state := o.state.withoutMarks }

theorem EnvOutcome.event_withoutMarks (o : EnvOutcome) (e : EnvEvent) :
    o.withoutMarks.event e = (o.event e).withoutMarks := by
  cases e with
  | pinsA v => rfl
  | pinsB v => rfl
  | mclr high => cases high <;> rfl
  | t0Edge rising =>
    have ht0cs : o.withoutMarks.state.t0cs = o.state.t0cs := rfl
    have hasleep : o.withoutMarks.state.asleep = o.state.asleep := rfl
    have ht0se : o.withoutMarks.state.t0se = o.state.t0se := rfl
    unfold EnvOutcome.event
    simp only [ht0cs, hasleep, ht0se]
    split
    · exact congrArg (fun t => { o with state := t }) o.state.tick_withoutMarks
    · rfl
  | wdtTimeout =>
    have henabled : o.withoutMarks.state.cfg.wdtEnabled = o.state.cfg.wdtEnabled := rfl
    have hasleep : o.withoutMarks.state.asleep = o.state.asleep := rfl
    unfold EnvOutcome.event
    simp only [henabled, hasleep]
    split
    · rfl
    · split <;> rfl
  | powerOn => rfl

theorem EnvOutcome.events_withoutMarks (l : List EnvEvent) (o : EnvOutcome) :
    l.foldl EnvOutcome.event o.withoutMarks = (l.foldl EnvOutcome.event o).withoutMarks := by
  induction l generalizing o with
  | nil => rfl
  | cons e l ih => rw [List.foldl_cons, List.foldl_cons, EnvOutcome.event_withoutMarks, ih]

theorem EnvOutcome.heldInReset_withoutMarks (o : EnvOutcome) :
    o.withoutMarks.heldInReset = o.heldInReset.withoutMarks := by
  have hmclr : o.withoutMarks.state.pinMclr = o.state.pinMclr := rfl
  unfold EnvOutcome.heldInReset
  rw [hmclr]
  split <;> rfl

theorem State.portChange_withoutMarks (s : State) :
    s.withoutMarks.portChange = s.portChange.withoutMarks := by
  have hpinB : s.withoutMarks.pinB = s.pinB := rfl
  have hrbLast : s.withoutMarks.rbLast = s.rbLast := rfl
  have htrisB : s.withoutMarks.trisB = s.trisB := rfl
  unfold State.portChange
  rw [hpinB, hrbLast, htrisB]
  split <;> rfl

theorem environment_withoutMarks (s : State) :
    environment s.withoutMarks = (environment s).withoutMarks := by
  have hevents : boundaryEvents s.withoutMarks = (boundaryEvents s).withoutMarks :=
    EnvOutcome.events_withoutMarks (s.env.headD []) ⟨{ s with env := s.env.tail }, none, false⟩
  unfold environment
  rw [hevents, EnvOutcome.heldInReset_withoutMarks]
  exact congrArg (fun t => { (boundaryEvents s).heldInReset with state := t })
    (State.portChange_withoutMarks _)

theorem State.wakeUp_withoutMarks (s : State) (byWatchdog : Bool) :
    s.withoutMarks.wakeUp byWatchdog = (s.wakeUp byWatchdog).withoutMarks := by
  cases byWatchdog <;> rfl

/-- A power-on marks every location again (R59), so the two sides agree without their marks only. -/
theorem State.resetBy_withoutMarks (s : State) (k : ResetKind) :
    (s.withoutMarks.resetBy k).withoutMarks = (s.resetBy k).withoutMarks := by
  cases k <;> rfl

/-- How the step goes on, without the marks. -/
def Boundary.withoutMarks : Boundary → Boundary
  | .settled s => .settled s.withoutMarks
  | .enter s => .enter s.withoutMarks
  | .run s => .run s.withoutMarks

/-- The boundary without marks is the boundary of the state without marks, a reset apart. -/
theorem boundary_withoutMarks (s : State) :
    (∃ k, ∃ t : State, boundary s = .settled (t.resetBy k)
        ∧ boundary s.withoutMarks = .settled (t.withoutMarks.resetBy k))
      ∨ boundary s.withoutMarks = (boundary s).withoutMarks := by
  unfold boundary
  rw [environment_withoutMarks]
  generalize environment s = o
  have hreset : o.withoutMarks.reset = o.reset := rfl
  have hasleep : o.withoutMarks.state.asleep = o.state.asleep := rfl
  have hwake : (o.withoutMarks.wdtWake || o.withoutMarks.state.wakePending)
      = (o.wdtWake || o.state.wakePending) := rfl
  have hpending : (o.withoutMarks.state.gie && o.withoutMarks.state.pending)
      = (o.state.gie && o.state.pending) := rfl
  unfold boundaryOf
  rw [hreset, hasleep, hwake, hpending]
  cases o.reset with
  | some k => exact .inl ⟨k, o.state, rfl, rfl⟩
  | none =>
    refine .inr ?_
    cases o.state.asleep with
    | true =>
      cases o.wdtWake || o.state.wakePending with
      | true => exact congrArg Boundary.run (State.wakeUp_withoutMarks _ _)
      | false => rfl
    | false => cases o.state.gie && o.state.pending <;> rfl

/-! ### The step and the run -/

theorem State.fetch_withoutMarks (s : State) : s.withoutMarks.fetch = s.fetch := rfl

/-- One step reports, or is the step without marks, a power-on's own marks apart. -/
theorem step_agrees (s : State) :
    Reports (step s)
      ∨ onNext State.withoutMarks (step s) = onNext State.withoutMarks (step s.withoutMarks) := by
  obtain ⟨k, t, hb, hb'⟩ | hb' := boundary_withoutMarks s
  · refine .inr ?_
    unfold step
    rw [hb, hb']
    exact congrArg Host.Outcome.next (t.resetBy_withoutMarks k).symm
  · unfold step
    rw [hb']
    cases boundary s with
    | settled t => exact .inr rfl
    | enter t =>
      refine .inr ?_
      simp only [Boundary.withoutMarks, State.interruptEntry_withoutMarks]
      cases t.interruptEntry with
      | error e => rfl
      | ok u => exact congrArg (fun t => Host.Outcome.next t.withoutMarks) u.runCycles_withoutMarks.symm
    | run t =>
      simp only [Boundary.withoutMarks, State.fetch_withoutMarks]
      cases t.fetch with
      | error e => exact .inr rfl
      | ok i =>
        obtain h | h := exec_agrees i t
        · exact .inl ((reports_onNext _ _).2 h)
        · refine .inr ?_
          simp only [← h, onNext_onNext, State.runCycles_withoutMarks, State.withoutMarks_withoutMarks]

theorem environment_cfg (s : State) : (environment s).state.cfg = s.cfg := by
  obtain ⟨_, _, _, _, _, _, _, h⟩ := environment_fields s
  rw [h]

theorem boundary_run_cfg {s e : State} (h : boundary s = .run e) : e.cfg = s.cfg := by
  obtain ⟨-, rfl | ⟨byWatchdog, rfl⟩⟩ := boundary_run h
  · exact environment_cfg s
  · cases byWatchdog <;> exact environment_cfg s

/-- No step changes the parameters (R7). -/
theorem step_cfg {s t : State} (h : step s = .next t) : t.cfg = s.cfg := by
  obtain hb | ⟨e, u, hb, hu, rfl⟩ | ⟨e, i, u, hb, -, hu, rfl⟩ := step_next h
  · obtain ⟨k, -, rfl⟩ | rfl := boundary_settled hb
    · obtain ⟨-, -, -, -, -, -, -, -, -, -, -, -, -, hcfg, -⟩ := (environment s).state.resetBy_common k
      exact hcfg.trans (environment_cfg s)
    · exact environment_cfg s
  · obtain ⟨_, _, _, rfl⟩ := State.interruptEntry_ok hu
    rw [State.runCycles_cfg, boundary_enter hb]
    exact environment_cfg s
  · obtain ⟨-, hcfg, -⟩ := neverWrittenByInstructions i e u hu
    rw [State.runCycles_cfg, hcfg, boundary_run_cfg hb]

theorem State.interruptEntry_error {s : State} {e : Fault} (h : s.interruptEntry = .error e) :
    e = .stackOverflow s.pc := by
  unfold State.interruptEntry at h
  cases hp : s.push s.pc s.pc with
  | ok t => simp [hp] at h
  | error f =>
    rw [hp] at h
    exact (Except.error.inj h).symm.trans (State.push_error hp)

/-- A fetch stops for a word outside the image or an unassigned one alone (R72, R115). -/
theorem State.fetch_error {s : State} {e : Fault} (h : s.fetch = .error e) :
    e = .fetchOutsideProgram s.pc ∨ ∃ w, e = .illegalInstruction s.pc w := by
  cases hw : s.prog.read (s.physAddr s.pc) with
  | none => exact .inl (Except.error.inj (h.symm.trans (State.fetch_of_no_word hw)))
  | some w =>
    cases hd : decode w with
    | ok i => cases h.symm.trans (State.fetch_of_decode hw hd)
    | error d => exact .inr ⟨w, Except.error.inj (h.symm.trans (State.fetch_of_illegal hw hd))⟩

/-- Under `draw` no step reports (R59). -/
theorem step_not_reports {s : State} (hdraw : s.cfg.uninitPolicy = .draw) : ¬ Reports (step s) := by
  cases hb : boundary s with
  | settled t => simp [step, hb]
  | enter e =>
    cases hu : e.interruptEntry with
    | ok u => simp [step, hb, hu]
    | error f => simp [step, hb, hu, State.interruptEntry_error hu]
  | run e =>
    cases hf : e.fetch with
    | error f =>
      rw [step_of_run_fault hb hf]
      obtain rfl | ⟨w, rfl⟩ := State.fetch_error hf <;> simp
    | ok i =>
      rw [step_of_run hb hf, reports_onNext]
      intro hr
      obtain ⟨hfault, -⟩ := (exec_reportsIff i e).1 hr
      rw [boundary_run_cfg hb, hdraw] at hfault
      cases hfault

theorem core_run_succ_of_fault {s : State} {e : Fault} (n : Nat) (h : step s = .fault e) :
    core.run (n + 1) s = .fault e := by
  have hstep : core.step s = .fault e := h
  simp only [Host.Core.run, hstep]

theorem core_run_succ_of_refused {s : State} {r : Refusal} (n : Nat) (h : step s = .refused r) :
    core.run (n + 1) s = .refused r := by
  have hstep : core.step s = .refused r := h
  simp only [Host.Core.run, hstep]

/-- Under `draw` no run reports. -/
theorem run_not_reports {s : State} (n : Nat) (hdraw : s.cfg.uninitPolicy = .draw) :
    ¬ Reports (core.run n s) := by
  induction n generalizing s with
  | zero => exact not_reports_next s
  | succ n ih =>
    have hstep := step_not_reports hdraw
    cases h : step s with
    | next t =>
      rw [core_run_succ h]
      exact ih (by rwa [step_cfg h])
    | fault e =>
      rw [core_run_succ_of_fault n h]
      rwa [h] at hstep
    | refused r =>
      rw [core_run_succ_of_refused n h]
      rwa [h] at hstep

theorem onNext_eq_fault {g : State → State} {o : Result} {e : Fault} (h : onNext g o = .fault e) :
    o = .fault e := by
  cases o with
  | fault e' => exact h
  | next u => cases h
  | refused r => cases h

theorem onNext_eq_refused {g : State → State} {o : Result} {r : Refusal} (h : onNext g o = .refused r) :
    o = .refused r := by
  cases o with
  | refused r' => exact h
  | next u => cases h
  | fault e => cases h

/-- A run reports, or it is the run without marks. After a step the state without marks and the next
state of the run under `draw` may differ in marks a power-on set; both then run as the one without. -/
theorem run_agrees (n : Nat) (s : State) :
    Reports (core.run n s)
      ∨ onNext State.withoutMarks (core.run n s)
          = onNext State.withoutMarks (core.run n s.withoutMarks) := by
  induction n generalizing s with
  | zero => exact .inr rfl
  | succ n ih =>
    cases h : step s with
    | fault e =>
      rw [core_run_succ_of_fault n h]
      refine (step_agrees s).imp (fun hr => by rwa [h] at hr) fun hs => ?_
      rw [h] at hs
      rw [core_run_succ_of_fault n (onNext_eq_fault hs.symm)]
    | refused r =>
      rw [core_run_succ_of_refused n h]
      refine (step_agrees s).imp (fun hr => by rwa [h] at hr) fun hs => ?_
      rw [h] at hs
      rw [core_run_succ_of_refused n (onNext_eq_refused hs.symm)]
    | next t =>
      have hs := (step_agrees s).resolve_left (by rw [h]; exact not_reports_next t)
      rw [h] at hs
      obtain ⟨t', h', ht'⟩ := onNext_eq_next.1 hs.symm
      have hdraw : t'.cfg.uninitPolicy = .draw := by rw [step_cfg h']; rfl
      rw [core_run_succ h, core_run_succ h']
      refine (ih t).imp_right fun ht => ?_
      calc onNext State.withoutMarks (core.run n t)
          = onNext State.withoutMarks (core.run n t.withoutMarks) := ht
        _ = onNext State.withoutMarks (core.run n t'.withoutMarks) := by rw [ht']
        _ = onNext State.withoutMarks (core.run n t') :=
            ((ih t').resolve_left (run_not_reports n hdraw)).symm

/-- Settles O60. -/
theorem marksOnlyAddFaults : Obligations.MarksOnlyAddFaults := by
  unfold Obligations.MarksOnlyAddFaults
  exact run_agrees

end Sys2Proof.Machine
end
